-- ==== Sys2Proof/Word.lean ====
section
/-!
DEFINITION. The word types of the ZN-960 and their plainest arithmetic (05_encoding R100, 00_scope R6).
-/
namespace Sys2Proof

/-- A 64-bit general-register value. -/
abbrev Word := BitVec 64

/-- One byte of memory, the smallest addressable unit (00_scope R6). -/
abbrev Byte := BitVec 8

/-- The field of `n` bits of the number `w` whose lowest bit is bit `lo` (00_scope R6: name[hi:lo]). -/
def fieldAt (w lo n : Nat) : Nat := w / 2 ^ lo % 2 ^ n

/-- Bit `i` of the number `w`. -/
def bitAt (w i : Nat) : Bool := w / 2 ^ i % 2 == 1

/-- A condition as a number: 1 when it holds. -/
def boolNat (b : Bool) : Nat := if b then 1 else 0

/-- A field read as two's complement of `n` bits. -/
def signedField (v n : Nat) : Int := if v < 2 ^ (n - 1) then (v : Int) else (v : Int) - (2 ^ n : Nat)

/-- `signExtend` of 06_scalar R145: the top bit of an `n`-bit field is copied into every higher bit. -/
def sext64 (v n : Nat) : Word := BitVec.ofInt 64 (signedField v n)

/-- A truth value as a register value, 1 or 0. -/
def boolWord (b : Bool) : Word := if b then 1 else 0

end Sys2Proof
end

