-- ==== Sys2Proof/Config.lean ====
section
/-!
DEFINITION. What one ZN-960 fixes (00_scope R1 to R4), the closed sets of names that events carry,
and the free values: results that the manual leaves open, as opaque constants with no body.
-/
namespace Sys2Proof

/-- The fault classes of 16_recovery R394 with GANG-LATE (03_accord R56, Table 3-5). -/
inductive FaultClass where
  | sram | pair | hang | dram | lane | link | die | xdie | pkg | tray | gangLate
deriving DecidableEq, Repr

/-- FCLASS code of a fault class (03_accord R56). -/
def FaultClass.code : FaultClass → Nat
  | .sram => 1 | .pair => 2 | .hang => 3 | .dram => 4 | .lane => 5 | .link => 6
  | .die => 7 | .xdie => 8 | .pkg => 9 | .tray => 10 | .gangLate => 11

/-- The rw fields of a partition configuration block (02_launch R34, Table 2-1). -/
inductive PartField where
  | energy | stagebase | stagesize | lqbase | lqsize | share | qcount | diemask | enable | flags
deriving DecidableEq, Repr

/-- What a soft error hits (16_recovery R389, R394, Table 16-8): a stored word (by its address in the package), the state of
a slot, a dirty or clean L1 data line, an instruction-cache line, a TBL entry, a save area of a task, a core's matrix context,
the lines of a task in a core's speculative write buffer. -/
inductive ErrorPlace where
  | word (addr : Nat)
  | slot (slot : Nat)
  | l1 (core line : Nat)
  | icache (core asid line : Nat)
  | tbl (core entry : Nat)
  | area (task slot : Nat)
  | matrix (core : Nat)
  | writeBuffer (core task : Nat)
deriving DecidableEq, Repr

namespace Config

/-- Compute dies are logical dies 0 to 11 (00_scope R1): C-dies 0 to 7, H-dies 8 to 11. -/
def isCDie (d : Nat) : Bool := d < 8
def isHDie (d : Nat) : Bool := 8 ≤ d && d < 12
def isComputeDie (d : Nat) : Bool := d < 12

/-- Clusters of a logical die (Table 0-1). -/
def clusters (d : Nat) : Nat := if d < 8 then 64 else if d < 12 then 48 else 0

/-- Cores of a logical die (Table 1-4: 512 and 384). -/
def coresOf (d : Nat) : Nat := clusters d * 8

/-- DRAM capacity in bytes (04_placement R77). -/
def dramBytes (d : Nat) : Nat := if d < 8 then 32 * 2 ^ 30 else if d < 12 then 192 * 2 ^ 30 else 0

/-- ACC and BST window sizes (Table 4-4). -/
def accBytes (d : Nat) : Nat := if d < 8 then 2 ^ 20 else 2 ^ 18
def bstBytes (d : Nat) : Nat := if d < 8 then 2 ^ 21 else 2 ^ 19
def lmBytes : Nat := 2 ^ 18

/-- Accumulator tiles, B-store units, banks (Table 10-1). -/
def accTiles (d : Nat) : Nat := if d < 8 then 1024 else 256
def bUnits (d : Nat) : Nat := if d < 8 then 8192 else 2048
def bBankUnits (d : Nat) : Nat := if d < 8 then 1024 else 512

/-- Memory controllers of a die (08_memory_ops R202): a C-die has 8, an H-die 3. -/
def controllers (d : Nat) : Nat := if d < 8 then 8 else 3

/-- A value that the manual leaves open or that another package answers with: the free-value counter of the
state, and which value of that step. -/
opaque freeWord : Nat → Nat → Word

/-- The code with which another package answers: 0 for performed, else a code of 08_memory_ops Table 8-7. -/
opaque freeCode : Nat → Nat → Nat

/-- From which position between two neighbouring values a FP32 or FP64 transcendental returns the one of larger magnitude,
where 07_numbers Table 7-8 allows both: function code, format code, bits of the smaller neighbour, and interval on which the
function is monotone (R177). -/
opaque sfuThreshold : Nat → Nat → Nat → Nat → Nat

/-- The slot that the fixed-rate compressor of 09_vector R242 forms from a block, both as numbers, for a slot and a block of so
many bytes: the manual fixes what a slot decodes to and not which of the codings is taken. -/
opaque frcCoding : Nat → Nat → Nat → Nat

/-- How many flits a packet with so many bytes takes on a link: 14_fabric Table 14-3 counts windows in flits and gives no size
of one. -/
opaque flits : Nat → Nat

/-- The transpositions whose product is what AES-256-XTS makes of one 16-byte block under a key: every permutation of the 16-byte
values is such a product. Key index and local address of the block; the manual gives the cipher and not the keys (04_placement
R88). -/
opaque xtsSwaps : Nat → Nat → List (Nat × Nat)

/-- Which controller of a die is home to a DRAM block: the manual gives their number (R202) and no map. -/
opaque controllerOf : Nat → Nat → Nat

/-- The SPA of the save area of a slot of a task in the context store or the staging region (16_recovery R403): the
manual fixes a save area's bytes and not where the scheduler puts it. -/
opaque spaOfSaveArea : Nat → Nat → Nat

end Config
end Sys2Proof
end

