-- ==== Sys2Proof/Syntax.lean ====
section
/-!
DEFINITION. The steps of the ZN-960: one constructor for each row of the opcode table. The first part are the
217 instruction words of the Goell set with their operand fields (05_encoding R101 to R121); the second part
are the steps of the scheduler, the engines, the homes, the fabric and the service processors, which have
no encoding and whose arguments name the part of the machine that takes the step. The rule beside a row is
the one that the table names.
-/
namespace Sys2Proof

/-- Every row of the opcode table. Field names are those of the table's encodings: `d` destination,
`a` `b` `c` sources, `t` `u` trap-on-empty bits, `i` `o` immediates, `w` width or wait mask, `k` token. -/
inductive Instr where
  | add (d a b : Fin 32) (t u : Bool)  -- R143
  | sub (d a b : Fin 32) (t u : Bool)  -- R143
  | mul (d a b : Fin 32) (t u : Bool)  -- R143
  | mulh (d a b : Fin 32) (t u : Bool)  -- R143
  | mulhu (d a b : Fin 32) (t u : Bool)  -- R143
  | div (d a b : Fin 32) (t u : Bool)  -- R144
  | divu (d a b : Fin 32) (t u : Bool)  -- R144
  | rem (d a b : Fin 32) (t u : Bool)  -- R144
  | remu (d a b : Fin 32) (t u : Bool)  -- R144
  | and (d a b : Fin 32) (t u : Bool)  -- R143
  | or (d a b : Fin 32) (t u : Bool)  -- R143
  | xor (d a b : Fin 32) (t u : Bool)  -- R143
  | andn (d a b : Fin 32) (t u : Bool)  -- R143
  | sll (d a b : Fin 32) (t u : Bool)  -- R143
  | srl (d a b : Fin 32) (t u : Bool)  -- R143
  | sra (d a b : Fin 32) (t u : Bool)  -- R143
  | ror (d a b : Fin 32) (t u : Bool)  -- R143
  | min (d a b : Fin 32) (t u : Bool)  -- R143
  | max (d a b : Fin 32) (t u : Bool)  -- R143
  | minu (d a b : Fin 32) (t u : Bool)  -- R143
  | maxu (d a b : Fin 32) (t u : Bool)  -- R143
  | slt (d a b : Fin 32) (t u : Bool)  -- R143
  | sltu (d a b : Fin 32) (t u : Bool)  -- R143
  | seq (d a b : Fin 32) (t u : Bool)  -- R143
  | sel (d a b : Fin 32) (t u : Bool)  -- R143
  | clz (d a : Fin 32) (t : Bool)  -- R143
  | ctz (d a : Fin 32) (t : Bool)  -- R143
  | popc (d a : Fin 32) (t : Bool)  -- R143
  | brev (d a : Fin 32) (t : Bool)  -- R143
  | bswap (d a : Fin 32) (t : Bool)  -- R143
  | addi (d a : Fin 32) (t : Bool) (i : Fin 2048)  -- R145
  | andi (d a : Fin 32) (t : Bool) (i : Fin 2048)  -- R145
  | ori (d a : Fin 32) (t : Bool) (i : Fin 2048)  -- R145
  | xori (d a : Fin 32) (t : Bool) (i : Fin 2048)  -- R145
  | slti (d a : Fin 32) (t : Bool) (i : Fin 2048)  -- R145
  | sltiu (d a : Fin 32) (t : Bool) (i : Fin 2048)  -- R145
  | slli (d a : Fin 32) (t : Bool) (i : Fin 64)  -- R145
  | srli (d a : Fin 32) (t : Bool) (i : Fin 64)  -- R145
  | srai (d a : Fin 32) (t : Bool) (i : Fin 64)  -- R145
  | lhi (d : Fin 32) (i : Fin 2097152)  -- R146
  | apc (d : Fin 32) (i : Fin 2097152)  -- R146
  | bfx (d a : Fin 32) (t : Bool) (w p : Fin 64)  -- R147
  | bfxs (d a : Fin 32) (t : Bool) (w p : Fin 64)  -- R147
  | bfi (d a : Fin 32) (t : Bool) (w p : Fin 64)  -- R147
  | bbinit (a b : Fin 32) (t u : Bool)  -- R213
  | bbget (d : Fin 32) (n : Fin 64)  -- R213
  | bbpeek (d : Fin 32) (n : Fin 64)  -- R213
  | bbskip (n : Fin 64)  -- R213
  | bbalign (n : Fin 64)  -- R213
  | bbemit (a : Fin 32) (t : Bool) (n : Fin 64)  -- R213
  | bbflush  -- R213
  | bbtell (d : Fin 32)  -- R213
  | beq (a b : Fin 32) (o : Fin 65536)  -- R148
  | bne (a b : Fin 32) (o : Fin 65536)  -- R148
  | blt (a b : Fin 32) (o : Fin 65536)  -- R148
  | bge (a b : Fin 32) (o : Fin 65536)  -- R148
  | bltu (a b : Fin 32) (o : Fin 65536)  -- R148
  | bgeu (a b : Fin 32) (o : Fin 65536)  -- R148
  | jal (d : Fin 32) (o : Fin 2097152)  -- R149
  | jalr (d a : Fin 32) (t : Bool) (i : Fin 2048)  -- R150
  | lb (d a : Fin 32) (t : Bool) (i : Fin 4096)  -- R190
  | lbs (d a : Fin 32) (t : Bool) (i : Fin 4096)  -- R190
  | lh (d a : Fin 32) (t : Bool) (i : Fin 4096)  -- R190
  | lhs (d a : Fin 32) (t : Bool) (i : Fin 4096)  -- R190
  | lw (d a : Fin 32) (t : Bool) (i : Fin 4096)  -- R190
  | lws (d a : Fin 32) (t : Bool) (i : Fin 4096)  -- R190
  | ld (d a : Fin 32) (t : Bool) (i : Fin 4096)  -- R190
  | sb (d a : Fin 32) (t : Bool) (i : Fin 4096)  -- R190
  | sh (d a : Fin 32) (t : Bool) (i : Fin 4096)  -- R190
  | sw (d a : Fin 32) (t : Bool) (i : Fin 4096)  -- R190
  | sd (d a : Fin 32) (t : Bool) (i : Fin 4096)  -- R190
  | ldfe (d a : Fin 32) (t : Bool) (m : Fin 8) (o : Fin 512)  -- R199
  | sdfe (d a : Fin 32) (t : Bool) (m : Fin 8) (o : Fin 512)  -- R199
  | feget (d a : Fin 32) (t : Bool) (o : Fin 512)  -- R199
  | feset (d a : Fin 32) (t : Bool) (o : Fin 512)  -- R199
  | amoadd (d a b : Fin 32) (t u w : Bool)  -- R210
  | amoswap (d a b : Fin 32) (t u w : Bool)  -- R210
  | amocas (d a b : Fin 32) (t u w : Bool)  -- R210
  | amoand (d a b : Fin 32) (t u w : Bool)  -- R210
  | amoor (d a b : Fin 32) (t u w : Bool)  -- R210
  | amoxor (d a b : Fin 32) (t u w : Bool)  -- R210
  | amomin (d a b : Fin 32) (t u w : Bool)  -- R210
  | amomax (d a b : Fin 32) (t u w : Bool)  -- R210
  | amominu (d a b : Fin 32) (t u w : Bool)  -- R210
  | amomaxu (d a b : Fin 32) (t u w : Bool)  -- R210
  | amofadd (d a b : Fin 32) (t u p : Bool)  -- R211
  | rld (d a : Fin 32) (t : Bool) (m : Fin 8) (w : Fin 4)  -- R206
  | rst (a b : Fin 32) (t u : Bool) (w : Fin 4)  -- R206
  | rstfe (a b : Fin 32) (t u : Bool) (m : Fin 8)  -- R206
  | ramo (d a b : Fin 32) (t u w : Bool) (f : Fin 16)  -- R206
  | acq (d a : Fin 32) (s : Fin 8)  -- R336
  | rel (d a : Fin 32) (s : Fin 8)  -- R337
  | fence (s : Fin 8)  -- R338
  | qfence (m : Fin 4096)  -- R339
  | bind (d a : Fin 32)  -- R334
  | ipf (a : Fin 32) (l : Bool) (n : Fin 512)  -- R126
  | ipin (d a : Fin 32) (l : Bool) (n : Fin 512)  -- R127
  | iunpin (a : Fin 32) (l : Bool) (n : Fin 512)  -- R128
  | dpf (a : Fin 32) (n : Fin 512)  -- R196
  | cwb (a : Fin 32) (n : Fin 512)  -- R196
  | cinv (a : Fin 32) (w : Bool) (n : Fin 512)  -- R196
  | fadd (d a b : Fin 32) (t u : Bool) (p : Fin 4) (r : Fin 8)  -- R174
  | fsub (d a b : Fin 32) (t u : Bool) (p : Fin 4) (r : Fin 8)  -- R174
  | fmul (d a b : Fin 32) (t u : Bool) (p : Fin 4) (r : Fin 8)  -- R174
  | fdiv (d a b : Fin 32) (t u : Bool) (p : Fin 4) (r : Fin 8)  -- R174
  | fsqrt (d a : Fin 32) (t : Bool) (p : Fin 4) (r : Fin 8)  -- R174
  | fmin (d a b : Fin 32) (t u : Bool) (p : Fin 4)  -- R174
  | fmax (d a b : Fin 32) (t u : Bool) (p : Fin 4)  -- R174
  | fminm (d a b : Fin 32) (t u : Bool) (p : Fin 4)  -- R174
  | fmaxm (d a b : Fin 32) (t u : Bool) (p : Fin 4)  -- R174
  | feq (d a b : Fin 32) (t u : Bool) (p : Fin 4)  -- R174
  | flt (d a b : Fin 32) (t u : Bool) (p : Fin 4)  -- R174
  | fle (d a b : Fin 32) (t u : Bool) (p : Fin 4)  -- R174
  | fclass (d a : Fin 32) (t : Bool) (p : Fin 4)  -- R174
  | fsgnj (d a b : Fin 32) (t u : Bool) (p : Fin 4)  -- R174
  | fsgnjn (d a b : Fin 32) (t u : Bool) (p : Fin 4)  -- R174
  | fsgnjx (d a b : Fin 32) (t u : Bool) (p : Fin 4)  -- R174
  | fma (d a b c : Fin 32) (p : Bool) (r : Fin 8)  -- R175
  | fms (d a b c : Fin 32) (p : Bool) (r : Fin 8)  -- R175
  | fnms (d a b c : Fin 32) (p : Bool) (r : Fin 8)  -- R175
  | fnma (d a b c : Fin 32) (p : Bool) (r : Fin 8)  -- R175
  | fcvt (d a : Fin 32) (w : Fin 4) (t : Bool) (x y r : Fin 8)  -- R176
  | fexp2 (d a : Fin 32) (t : Bool) (p : Fin 4)  -- R177
  | flog2 (d a : Fin 32) (t : Bool) (p : Fin 4)  -- R177
  | fexp (d a : Fin 32) (t : Bool) (p : Fin 4)  -- R177
  | fln (d a : Fin 32) (t : Bool) (p : Fin 4)  -- R177
  | frcp (d a : Fin 32) (t : Bool) (p : Fin 4)  -- R177
  | frsq (d a : Fin 32) (t : Bool) (p : Fin 4)  -- R177
  | fsin (d a : Fin 32) (t : Bool) (p : Fin 4)  -- R177
  | fcos (d a : Fin 32) (t : Bool) (p : Fin 4)  -- R177
  | ftanh (d a : Fin 32) (t : Bool) (p : Fin 4)  -- R177
  | fsigm (d a : Fin 32) (t : Bool) (p : Fin 4)  -- R177
  | ferf (d a : Fin 32) (t : Bool) (p : Fin 4)  -- R177
  | xclr (a : Fin 32) (t : Bool)  -- R181
  | xacc (a b : Fin 32) (t u : Bool) (p : Fin 4)  -- R181
  | xrnd (d a : Fin 32) (t : Bool) (p : Fin 4) (r : Fin 8)  -- R181
  | vadd (d a b : Fin 16) (y : Fin 8)  -- R223
  | vsub (d a b : Fin 16) (y : Fin 8)  -- R223
  | vmul (d a b : Fin 16) (y : Fin 8)  -- R223
  | vfma (d a b : Fin 16) (y : Fin 8)  -- R223
  | vmin (d a b : Fin 16) (y : Fin 8)  -- R223
  | vmax (d a b : Fin 16) (y : Fin 8)  -- R223
  | vand (d a b : Fin 16) (y : Fin 8)  -- R223
  | vor (d a b : Fin 16) (y : Fin 8)  -- R223
  | vxor (d a b : Fin 16) (y : Fin 8)  -- R223
  | vshl (d a b : Fin 16) (y : Fin 8)  -- R223
  | vshr (d a b : Fin 16) (y : Fin 8)  -- R223
  | vcmp (d a b : Fin 16) (y : Fin 8)  -- R223
  | vsel (d a b : Fin 16) (y : Fin 8)  -- R223
  | vperm (d a b : Fin 16) (y : Fin 8)  -- R223
  | vmov (d a : Fin 16) (y : Fin 8)  -- R223
  | vbcst (d : Fin 16) (a : Fin 32) (t : Bool) (y : Fin 8)  -- R223
  | vredadd (d : Fin 32) (a : Fin 16) (y : Fin 8)  -- R224
  | vredmax (d : Fin 32) (a : Fin 16) (y : Fin 8)  -- R224
  | vredmin (d : Fin 32) (a : Fin 16) (y : Fin 8)  -- R224
  | vcvt (d a : Fin 16) (x y : Fin 8)  -- R225
  | vqnt (d a : Fin 16) (b : Fin 32) (u : Bool)  -- R228
  | vmaxx (d : Fin 32) (a : Fin 16)  -- R227
  | vexp (d a : Fin 16) (y : Fin 8)  -- R226
  | vln (d a : Fin 16) (y : Fin 8)  -- R226
  | vrcp (d a : Fin 16) (y : Fin 8)  -- R226
  | vrsq (d a : Fin 16) (y : Fin 8)  -- R226
  | vtanh (d a : Fin 16) (y : Fin 8)  -- R226
  | vclaim (d a : Fin 32) (t : Bool)  -- R216
  | vreneg (d a : Fin 32) (t : Bool)  -- R216
  | vrel  -- R216
  | vld (d : Fin 16) (a : Fin 32) (t : Bool)  -- R229
  | vlds (d : Fin 16) (a b : Fin 32) (t u : Bool)  -- R229
  | vgth (d : Fin 16) (a : Fin 32) (b : Fin 16) (t : Bool)  -- R232
  | vst (d : Fin 16) (a : Fin 32) (t : Bool)  -- R229
  | vsts (d : Fin 16) (a b : Fin 32) (t u : Bool)  -- R229
  | vsct (d : Fin 16) (a : Fin 32) (b : Fin 16) (t : Bool)  -- R232
  | vchain (a : Fin 32) (t : Bool)  -- R235
  | mcfg (w : Fin 256) (a : Fin 32)  -- R255
  | mldb (k : Fin 8) (w : Fin 256) (a b : Fin 32)  -- R259
  | mlda (k : Fin 8) (w : Fin 256) (a b : Fin 32)  -- R259
  | mm16 (k : Fin 8) (w : Fin 256) (a b : Fin 32)  -- R261
  | mtile (k : Fin 8) (w : Fin 256) (a : Fin 32)  -- R265
  | mzero (k : Fin 8) (w : Fin 256) (a b : Fin 32)  -- R262
  | mstc (k : Fin 8) (w : Fin 256) (a b : Fin 32)  -- R263
  | mprog (w : Fin 256) (a b : Fin 32)  -- R271
  | mjoin (k : Fin 8) (w : Fin 256) (a : Fin 32)  -- R272
  | mgv (k : Fin 8) (w : Fin 256) (a b : Fin 32)  -- R284
  | mgvb (k : Fin 8) (w : Fin 256) (a b : Fin 32)  -- R284
  | mcbt (k : Fin 8) (w : Fin 256) (a b : Fin 32)  -- R292
  | send (k : Fin 8) (w : Fin 256) (a b : Fin 32)  -- R306
  | sendx (k : Fin 8) (w : Fin 256) (a b : Fin 32)  -- R307
  | dget (k : Fin 8) (w : Fin 256) (a b : Fin 32)  -- R312
  | dgetl (k : Fin 8) (w : Fin 256) (a b : Fin 32)  -- R312
  | darith (k : Fin 8) (w : Fin 256) (a b : Fin 32)  -- R316
  | cfollow (k : Fin 8) (w : Fin 256) (a b : Fin 32)  -- R325
  | cquery (k : Fin 8) (w : Fin 256) (a b : Fin 32)  -- R326
  | ccancel (k : Fin 8) (w : Fin 256) (a : Fin 32)  -- R327
  | xreq (k : Fin 8) (w : Fin 256) (a b : Fin 32)  -- R236
  | xpoll (k : Fin 8) (w : Fin 256) (a b : Fin 32)  -- R237
  | xres (k : Fin 8) (w : Fin 256) (a b : Fin 32)  -- R237
  | engw (e : Fin 64) (w : Fin 256) (a : Fin 32)  -- R302
  | engr (e : Fin 64) (w : Fin 256) (b : Fin 32)  -- R302
  | wait (w : Fin 256)  -- R299
  | tokq (k : Fin 8) (w : Fin 256) (a b : Fin 32)  -- R300
  | svc (n : Fin 4096)  -- R152
  | brk (n : Fin 4096)  -- R152
  | eret  -- R153
  | csrr (d : Fin 32) (c : Fin 4096)  -- R154
  | csrw (d a : Fin 32) (c : Fin 4096)  -- R154
  | yield (n : Fin 4096)  -- R155
  | empty (d n : Fin 32)  -- R142
  | halt  -- R156
  | spawn (d a : Fin 32)  -- R157
  | tdone (n : Fin 4096)  -- R159
  | cdopen (d a : Fin 32)  -- R385
  | cdpres (d a : Fin 32) (n : Fin 256)  -- R385
  | cdclose (d a : Fin 32)  -- R385
  | pair (d : Fin 32)  -- R377
  | unpair (d : Fin 32)  -- R380
  | rcommit (d a : Fin 32) (n : Fin 64)  -- R91
  | aswap (d a : Fin 32) (k : Bool) (n : Fin 256)  -- R64
  -- Steps of the other agents: rows of the table without an encoding.
  | illegalInstruction (word : BitVec 32)  -- R103
  | rotationBoundary (die : Nat)  -- R67
  | balancingInterval (die : Nat)  -- R96
  | dispatchDecision (part die : Nat)  -- R58
  | preemptionDecision (part die : Nat)  -- R58
  | faultDecision (part die : Nat)  -- R58
  | stage (part : Nat)  -- R65
  | policySwitch (part die : Nat)  -- R66
  | gangSliceRequest (task : Nat)  -- R69
  | gangSliceStart (task : Nat)  -- R69
  | gangLateMemberStart (task : Nat)  -- R69
  | gangSliceCancel (task : Nat)  -- R69
  | gangSliceEnd (task : Nat)  -- R69
  | gangMembersSaved (task pkg : Nat)  -- R375
  | doorbell (xdie part : Nat) (value : BitVec 64)  -- R35
  | launchAdmission (part : Nat)  -- R39
  | heldRecordRecheck (part : Nat)  -- R40
  | partitionConfigWrite (part : Nat) (field : PartField) (value : BitVec 64)  -- R34
  | enadd (part : Nat) (value : BitVec 64)  -- R34
  | stagingFetchComplete (task input : Nat)  -- R42
  | stagingFetchRetry (task input : Nat)  -- R440
  | taskItemDelivery (box : Nat)  -- R46
  | go (xdie : Nat)  -- R94
  | rangeCommitDrainReport (die : Nat)  -- R93
  | rangeCommitSwitch  -- R93
  | dieMapSwitch (die : Nat)  -- R75
  | regWindowWrite (msg : Nat)  -- R79
  | tblWindowWrite (msg : Nat)  -- R80
  | homeAccess (msg : Nat)  -- R201
  | replyArrival (msg : Nat)  -- R205
  | asyncTrapEntry (slot : Nat)  -- R366
  | journalAck (core entry : Nat)  -- R207
  | postedStoreRefusal (core entry : Nat) (code : BitVec 7)  -- R208
  | l1Fill (core line : Nat)  -- R193
  | writebackReply (wb : Nat) (code : BitVec 7)  -- R438
  | writebackRetry (core : Nat)  -- R438
  | mergeWindowExpiry (cluster block : Nat)  -- R195
  | icacheFill (core asid line : Nat)  -- R125
  | xfmCrc (cluster : Nat)  -- R240
  | xfmFrc (cluster : Nat)  -- R242
  | xfmFrd (cluster : Nat)  -- R243
  | xfmEbc (cluster : Nat)  -- R244
  | xfmEbd (cluster : Nat)  -- R244
  | xfmCtb (cluster : Nat)  -- R245
  | mldaExecute (core : Nat)  -- R259
  | mldbExecute (core : Nat)  -- R259
  | mm16Execute (core : Nat)  -- R261
  | mzeroExecute (core : Nat)  -- R262
  | mstcExecute (core : Nat)  -- R263
  | mcbtExecute (core : Nat)  -- R292
  | mjoinComplete (job gid : Nat)  -- R272
  | cfollowMtileStart (core : Nat)  -- R325
  | groupWatchdogFire (job gid : Nat)  -- R275
  | gvQueueGrant (cluster : Nat)  -- R288
  | engineBoxIssue (core queue : Nat)  -- R295
  | boxWrite (box : Nat)  -- R306
  | boxAck (box : Nat)  -- R308
  | directedReadOwner (box : Nat)  -- R313
  | directedReadDelivery (box : Nat)  -- R313
  | darithPacketApply (box : Nat)  -- R317
  | orderedPacketArrival (box : Nat)  -- R318
  | darithOpenPacket (box : Nat)  -- R318
  | orderedPacketResend (box : Nat)  -- R318
  | orderedHeldAck (box : Nat)  -- R320
  | parityUpdate (update : Nat)  -- R323
  | routerHop (packet : Nat)  -- R349
  | laneLoss (port link lane : Nat)  -- R358
  | retrain (port link : Nat)  -- R352
  | linkTrainingDone (port link : Nat) (live : BitVec 4)  -- R358
  | flitCrcResend (port link : Nat)  -- R355
  | flitResendLimit (port link : Nat)  -- R355
  | fabricTimeout (packet : Nat)  -- R356
  | rclk (xdie : Nat) (code : BitVec 2)  -- R361
  | rclkApply (xdie : Nat)  -- R361
  | rclkPauseEnd (xdie : Nat)  -- R361
  | xdieLoss (xdie : Nat)  -- R360
  | fenceListWrite (index : Nat) (value : BitVec 16)  -- R348
  | linkWeightWrite (port link : Nat) (wovr : Bool) (weight : BitVec 4)  -- R354
  | preemptionRequest (task : Nat)  -- R367
  | preemptionSave (task : Nat)  -- R367
  | swapOut (task : Nat)  -- R373
  | swapIn (task : Nat)  -- R373
  | pairItemCompare (task slot : Nat)  -- R378
  | pairItemTimeout (task slot : Nat)  -- R379
  | heartbeat (die : Nat)  -- R395
  | diagnosisOpen (cls : FaultClass) (element : Nat)  -- R395
  | pairAgreement (diag : Nat)  -- R395
  | neighbourProbe (pkg element : Nat) (answered : Bool)  -- R395
  | confirmationReply (diag : Nat) (confirm : Bool)  -- R395
  | confirmationTimeout (diag : Nat)  -- R395
  | diagnosisRetry (diag : Nat)  -- R395
  | packageLossDiagnosis (pkg confirms : Nat)  -- R396
  | domainRestoreComplete (job domain : Nat)  -- R390
  | stripeGroupRebuild  -- R399
  | watchdogFire (slot : Nat)  -- R393
  | release (xdie : Nat)  -- R403
  | requeue (xdie : Nat)  -- R403
  | kill (xdie : Nat)  -- R403
  | saveaddr (xdie : Nat)  -- R403
  | spareadd (xdie : Nat)  -- R403
  | sparedel (xdie : Nat)  -- R403
  | schedCmdReserved (xdie : Nat)  -- R403
  | taskRetirement (task : Nat)  -- R406
  | powerControlTick (power : Nat) (temps draws : List Nat)  -- R411
  | powerGood (calfail : BitVec 16) (signatureOk firmwareOk : Bool)  -- R412
  | lcsChange (lcs : BitVec 2)  -- R414
  | controlRegisterWrite (die offset : Nat) (value : BitVec 64)  -- R7
  | pairAgreementTimeout (diag : Nat)  -- R395
  | dieLoss (die : Nat)  -- R404
  | softError (place : ErrorPlace) (correctable : Bool)  -- R394
  | packagePowerRemoved  -- R411
  | mtileSequencerStep (core : Nat)  -- R268
  | gvRowComplete (slot : Nat)  -- R287
  | vchainGroupComplete (slot : Nat)  -- R235
deriving DecidableEq, Repr

/-- The steps without an encoding by themselves: what the agenda and the timers of the state hold. Each has the
constructor of `Instr` with the same name and arguments. -/
inductive Event where
  | illegalInstruction (word : BitVec 32)
  | rotationBoundary (die : Nat)
  | balancingInterval (die : Nat)
  | dispatchDecision (part die : Nat)
  | preemptionDecision (part die : Nat)
  | faultDecision (part die : Nat)
  | stage (part : Nat)
  | policySwitch (part die : Nat)
  | gangSliceRequest (task : Nat)
  | gangSliceStart (task : Nat)
  | gangLateMemberStart (task : Nat)
  | gangSliceCancel (task : Nat)
  | gangSliceEnd (task : Nat)
  | gangMembersSaved (task pkg : Nat)
  | doorbell (xdie part : Nat) (value : BitVec 64)
  | launchAdmission (part : Nat)
  | heldRecordRecheck (part : Nat)
  | partitionConfigWrite (part : Nat) (field : PartField) (value : BitVec 64)
  | enadd (part : Nat) (value : BitVec 64)
  | stagingFetchComplete (task input : Nat)
  | stagingFetchRetry (task input : Nat)
  | taskItemDelivery (box : Nat)
  | go (xdie : Nat)
  | rangeCommitDrainReport (die : Nat)
  | rangeCommitSwitch
  | dieMapSwitch (die : Nat)
  | regWindowWrite (msg : Nat)
  | tblWindowWrite (msg : Nat)
  | homeAccess (msg : Nat)
  | replyArrival (msg : Nat)
  | asyncTrapEntry (slot : Nat)
  | journalAck (core entry : Nat)
  | postedStoreRefusal (core entry : Nat) (code : BitVec 7)
  | l1Fill (core line : Nat)
  | writebackReply (wb : Nat) (code : BitVec 7)
  | writebackRetry (core : Nat)
  | mergeWindowExpiry (cluster block : Nat)
  | icacheFill (core asid line : Nat)
  | xfmCrc (cluster : Nat)
  | xfmFrc (cluster : Nat)
  | xfmFrd (cluster : Nat)
  | xfmEbc (cluster : Nat)
  | xfmEbd (cluster : Nat)
  | xfmCtb (cluster : Nat)
  | mldaExecute (core : Nat)
  | mldbExecute (core : Nat)
  | mm16Execute (core : Nat)
  | mzeroExecute (core : Nat)
  | mstcExecute (core : Nat)
  | mcbtExecute (core : Nat)
  | mjoinComplete (job gid : Nat)
  | cfollowMtileStart (core : Nat)
  | groupWatchdogFire (job gid : Nat)
  | gvQueueGrant (cluster : Nat)
  | engineBoxIssue (core queue : Nat)
  | boxWrite (box : Nat)
  | boxAck (box : Nat)
  | directedReadOwner (box : Nat)
  | directedReadDelivery (box : Nat)
  | darithPacketApply (box : Nat)
  | orderedPacketArrival (box : Nat)
  | darithOpenPacket (box : Nat)
  | orderedPacketResend (box : Nat)
  | orderedHeldAck (box : Nat)
  | parityUpdate (update : Nat)
  | routerHop (packet : Nat)
  | laneLoss (port link lane : Nat)
  | retrain (port link : Nat)
  | linkTrainingDone (port link : Nat) (live : BitVec 4)
  | flitCrcResend (port link : Nat)
  | flitResendLimit (port link : Nat)
  | fabricTimeout (packet : Nat)
  | rclk (xdie : Nat) (code : BitVec 2)
  | rclkApply (xdie : Nat)
  | rclkPauseEnd (xdie : Nat)
  | xdieLoss (xdie : Nat)
  | fenceListWrite (index : Nat) (value : BitVec 16)
  | linkWeightWrite (port link : Nat) (wovr : Bool) (weight : BitVec 4)
  | preemptionRequest (task : Nat)
  | preemptionSave (task : Nat)
  | swapOut (task : Nat)
  | swapIn (task : Nat)
  | pairItemCompare (task slot : Nat)
  | pairItemTimeout (task slot : Nat)
  | heartbeat (die : Nat)
  | diagnosisOpen (cls : FaultClass) (element : Nat)
  | pairAgreement (diag : Nat)
  | neighbourProbe (pkg element : Nat) (answered : Bool)
  | confirmationReply (diag : Nat) (confirm : Bool)
  | confirmationTimeout (diag : Nat)
  | diagnosisRetry (diag : Nat)
  | packageLossDiagnosis (pkg confirms : Nat)
  | domainRestoreComplete (job domain : Nat)
  | stripeGroupRebuild
  | watchdogFire (slot : Nat)
  | release (xdie : Nat)
  | requeue (xdie : Nat)
  | kill (xdie : Nat)
  | saveaddr (xdie : Nat)
  | spareadd (xdie : Nat)
  | sparedel (xdie : Nat)
  | schedCmdReserved (xdie : Nat)
  | taskRetirement (task : Nat)
  | powerControlTick (power : Nat) (temps draws : List Nat)
  | powerGood (calfail : BitVec 16) (signatureOk firmwareOk : Bool)
  | lcsChange (lcs : BitVec 2)
  | controlRegisterWrite (die offset : Nat) (value : BitVec 64)
  | pairAgreementTimeout (diag : Nat)
  | dieLoss (die : Nat)
  | softError (place : ErrorPlace) (correctable : Bool)
  | packagePowerRemoved
  | mtileSequencerStep (core : Nat)
  | gvRowComplete (slot : Nat)
  | vchainGroupComplete (slot : Nat)
deriving DecidableEq, Repr

end Sys2Proof
end

