-- ==== Sys2Proof/WellFormed.lean ====
section
/-!
DEFINITION. Which terms of Instr stand for assigned instruction words: the limits that an encoding's own text puts
on a field beyond its width (05_encoding R103 to R121, 09_vector R222, 13_consistency R335).
-/
namespace Sys2Proof

/-- Position plus width at most 64; `w` is the width minus 1 (05_encoding R106). -/
def bitFieldFits (w p : Fin 64) : Bool := w.val + 1 + p.val ≤ 64

/-- `BBALIGN` takes a power of two from 1 to 64; `n` is the count minus 1 (08_memory_ops R213). -/
def powerOfTwoCount (n : Fin 64) : Bool :=
  n == 0 || n == 1 || n == 3 || n == 7 || n == 15 || n == 31 || n == 63

/-- Modes plain, wf, wfe, take (05_encoding R109, Table 5-4). -/
def loadMode (m : Fin 8) : Bool := m == 0 || m == 1 || m == 2 || m == 5

/-- Modes plain, wef, fill (Table 5-4). -/
def storeMode (m : Fin 8) : Bool := m == 0 || m == 3 || m == 4

/-- AMO function codes 0x0 to 0xA (05_encoding R110). -/
def amoFunction (f : Fin 16) : Bool := f.val ≤ 10

/-- Scope codes 0 to 4 (05_encoding R112). -/
def scopeCode (s : Fin 8) : Bool := s.val ≤ 4

/-- A queue mask is not zero and has bits 10 and 11 clear (13_consistency R335). -/
def queueMask (m : Fin 4096) : Bool := m.val != 0 && m.val < 1024

/-- rm = 110 is unassigned everywhere (05_encoding R114). -/
def roundingCode (r : Fin 8) : Bool := r != 6

/-- `FCVT`: destination and source differ, not both integers, width 0 without an integer side,
rm 000 for a tapered destination, rm not 110 (05_encoding R117). `x` destination, `y` source. -/
def convertible (w : Fin 4) (x y r : Fin 8) : Bool :=
  x != y && !(6 ≤ x.val && 6 ≤ y.val) && (6 ≤ x.val || 6 ≤ y.val || w == 0) &&
    (!(x == 4 || x == 5) || r == 0) && r != 6

/-- Vector element types FP32, FP64, BF16, FP16 (05_encoding R119). -/
def floatType (y : Fin 8) : Bool := y.val ≤ 3

/-- Vector element types int32, int16, int8. -/
def intType (y : Fin 8) : Bool := 4 ≤ y.val && y.val ≤ 6

/-- `VCVT`: different types, not both integer, no code 111 (09_vector R225). `x` destination, `y` source. -/
def vectorConvertible (x y : Fin 8) : Bool := x != y && x != 7 && y != 7 && !(4 ≤ x.val && 4 ≤ y.val)

/-- `EMPTY`: rd not 0 and rd + n at most 32; `n` is the count minus 1 (06_scalar R142). -/
def emptyRange (d n : Fin 32) : Bool := d != 0 && d.val + n.val + 1 ≤ 32

/-- The CSR numbers of 06_scalar Table 6-8. -/
def csrListed (c : Fin 4096) : Bool :=
  c.val ≤ 7 || c.val == 0x10 || (0x18 ≤ c.val && c.val ≤ 0x1C) || (0x20 ≤ c.val && c.val ≤ 0x24) ||
    (0x30 ≤ c.val && c.val ≤ 0x33) || c.val == 0x38

/-- A term of Instr that an assigned instruction word stands for. A step of another agent has no word. -/
def Instr.wf : Instr → Bool
  | .bfx _ _ _ w p => bitFieldFits w p
  | .bfxs _ _ _ w p => bitFieldFits w p
  | .bfi _ _ _ w p => bitFieldFits w p
  | .bbalign n => powerOfTwoCount n
  | .ldfe _ _ _ m _ => loadMode m
  | .sdfe _ _ _ m _ => storeMode m
  | .rld _ _ _ m w => loadMode m && (m == 0 || w == 0)
  | .rstfe _ _ _ _ m => m == 3 || m == 4
  | .ramo _ _ _ _ _ _ f => amoFunction f
  | .acq _ _ s => scopeCode s
  | .rel _ _ s => scopeCode s
  | .fence s => scopeCode s
  | .qfence m => queueMask m
  | .fadd _ _ _ _ _ _ r => roundingCode r
  | .fsub _ _ _ _ _ _ r => roundingCode r
  | .fmul _ _ _ _ _ _ r => roundingCode r
  | .fdiv _ _ _ _ _ _ r => roundingCode r
  | .fsqrt _ _ _ _ r => roundingCode r
  | .fma _ _ _ _ _ r => roundingCode r
  | .fms _ _ _ _ _ r => roundingCode r
  | .fnms _ _ _ _ _ r => roundingCode r
  | .fnma _ _ _ _ _ r => roundingCode r
  | .fcvt _ _ w _ x y r => convertible w x y r
  | .xacc _ _ _ _ p => p != 0
  | .xrnd _ _ _ p r => (p == 1 || p == 3) && roundingCode r
  | .vadd _ _ _ y => y != 7
  | .vsub _ _ _ y => y != 7
  | .vmul _ _ _ y => y != 7
  | .vfma _ _ _ y => floatType y
  | .vmin _ _ _ y => y != 7
  | .vmax _ _ _ y => y != 7
  | .vand _ _ _ y => intType y
  | .vor _ _ _ y => intType y
  | .vxor _ _ _ y => intType y
  | .vshl _ _ _ y => intType y
  | .vshr _ _ _ y => intType y
  | .vcmp _ _ _ y => y != 7
  | .vsel _ _ _ y => y != 7
  | .vperm _ _ _ y => y != 7
  | .vmov _ _ y => y != 7
  | .vbcst _ _ _ y => y != 7
  | .vredadd _ _ y => y != 7
  | .vredmax _ _ y => y != 7
  | .vredmin _ _ y => y != 7
  | .vcvt _ _ x y => vectorConvertible x y
  | .vexp _ _ y => floatType y
  | .vln _ _ y => floatType y
  | .vrcp _ _ y => floatType y
  | .vrsq _ _ y => floatType y
  | .vtanh _ _ y => floatType y
  | .csrr _ c => csrListed c
  | .csrw _ _ c => csrListed c
  | .empty d n => emptyRange d n
  | .add .. => true
  | .sub .. => true
  | .mul .. => true
  | .mulh .. => true
  | .mulhu .. => true
  | .div .. => true
  | .divu .. => true
  | .rem .. => true
  | .remu .. => true
  | .and .. => true
  | .or .. => true
  | .xor .. => true
  | .andn .. => true
  | .sll .. => true
  | .srl .. => true
  | .sra .. => true
  | .ror .. => true
  | .min .. => true
  | .max .. => true
  | .minu .. => true
  | .maxu .. => true
  | .slt .. => true
  | .sltu .. => true
  | .seq .. => true
  | .sel .. => true
  | .clz .. => true
  | .ctz .. => true
  | .popc .. => true
  | .brev .. => true
  | .bswap .. => true
  | .addi .. => true
  | .andi .. => true
  | .ori .. => true
  | .xori .. => true
  | .slti .. => true
  | .sltiu .. => true
  | .slli .. => true
  | .srli .. => true
  | .srai .. => true
  | .lhi .. => true
  | .apc .. => true
  | .bbinit .. => true
  | .bbget .. => true
  | .bbpeek .. => true
  | .bbskip .. => true
  | .bbemit .. => true
  | .bbflush => true
  | .bbtell .. => true
  | .beq .. => true
  | .bne .. => true
  | .blt .. => true
  | .bge .. => true
  | .bltu .. => true
  | .bgeu .. => true
  | .jal .. => true
  | .jalr .. => true
  | .lb .. => true
  | .lbs .. => true
  | .lh .. => true
  | .lhs .. => true
  | .lw .. => true
  | .lws .. => true
  | .ld .. => true
  | .sb .. => true
  | .sh .. => true
  | .sw .. => true
  | .sd .. => true
  | .feget .. => true
  | .feset .. => true
  | .amoadd .. => true
  | .amoswap .. => true
  | .amocas .. => true
  | .amoand .. => true
  | .amoor .. => true
  | .amoxor .. => true
  | .amomin .. => true
  | .amomax .. => true
  | .amominu .. => true
  | .amomaxu .. => true
  | .amofadd .. => true
  | .rst .. => true
  | .bind .. => true
  | .ipf .. => true
  | .ipin .. => true
  | .iunpin .. => true
  | .dpf .. => true
  | .cwb .. => true
  | .cinv .. => true
  | .fmin .. => true
  | .fmax .. => true
  | .fminm .. => true
  | .fmaxm .. => true
  | .feq .. => true
  | .flt .. => true
  | .fle .. => true
  | .fclass .. => true
  | .fsgnj .. => true
  | .fsgnjn .. => true
  | .fsgnjx .. => true
  | .fexp2 .. => true
  | .flog2 .. => true
  | .fexp .. => true
  | .fln .. => true
  | .frcp .. => true
  | .frsq .. => true
  | .fsin .. => true
  | .fcos .. => true
  | .ftanh .. => true
  | .fsigm .. => true
  | .ferf .. => true
  | .xclr .. => true
  | .vqnt .. => true
  | .vmaxx .. => true
  | .vclaim .. => true
  | .vreneg .. => true
  | .vrel => true
  | .vld .. => true
  | .vlds .. => true
  | .vgth .. => true
  | .vst .. => true
  | .vsts .. => true
  | .vsct .. => true
  | .vchain .. => true
  | .mcfg .. => true
  | .mldb .. => true
  | .mlda .. => true
  | .mm16 .. => true
  | .mtile .. => true
  | .mzero .. => true
  | .mstc .. => true
  | .mprog .. => true
  | .mjoin .. => true
  | .mgv .. => true
  | .mgvb .. => true
  | .mcbt .. => true
  | .send .. => true
  | .sendx .. => true
  | .dget .. => true
  | .dgetl .. => true
  | .darith .. => true
  | .cfollow .. => true
  | .cquery .. => true
  | .ccancel .. => true
  | .xreq .. => true
  | .xpoll .. => true
  | .xres .. => true
  | .engw .. => true
  | .engr .. => true
  | .wait .. => true
  | .tokq .. => true
  | .svc .. => true
  | .brk .. => true
  | .eret => true
  | .yield .. => true
  | .halt => true
  | .spawn .. => true
  | .tdone .. => true
  | .cdopen .. => true
  | .cdpres .. => true
  | .cdclose .. => true
  | .pair .. => true
  | .unpair .. => true
  | .rcommit .. => true
  | .aswap .. => true
  | .illegalInstruction .. => false
  | .rotationBoundary .. => false
  | .balancingInterval .. => false
  | .dispatchDecision .. => false
  | .preemptionDecision .. => false
  | .faultDecision .. => false
  | .stage .. => false
  | .policySwitch .. => false
  | .gangSliceRequest .. => false
  | .gangSliceStart .. => false
  | .gangLateMemberStart .. => false
  | .gangSliceCancel .. => false
  | .gangSliceEnd .. => false
  | .gangMembersSaved .. => false
  | .doorbell .. => false
  | .launchAdmission .. => false
  | .heldRecordRecheck .. => false
  | .partitionConfigWrite .. => false
  | .enadd .. => false
  | .stagingFetchComplete .. => false
  | .stagingFetchRetry .. => false
  | .taskItemDelivery .. => false
  | .go .. => false
  | .rangeCommitDrainReport .. => false
  | .rangeCommitSwitch => false
  | .dieMapSwitch .. => false
  | .regWindowWrite .. => false
  | .tblWindowWrite .. => false
  | .homeAccess .. => false
  | .replyArrival .. => false
  | .asyncTrapEntry .. => false
  | .journalAck .. => false
  | .postedStoreRefusal .. => false
  | .l1Fill .. => false
  | .writebackReply .. => false
  | .writebackRetry .. => false
  | .mergeWindowExpiry .. => false
  | .icacheFill .. => false
  | .xfmCrc .. => false
  | .xfmFrc .. => false
  | .xfmFrd .. => false
  | .xfmEbc .. => false
  | .xfmEbd .. => false
  | .xfmCtb .. => false
  | .mldaExecute .. => false
  | .mldbExecute .. => false
  | .mm16Execute .. => false
  | .mzeroExecute .. => false
  | .mstcExecute .. => false
  | .mcbtExecute .. => false
  | .mjoinComplete .. => false
  | .cfollowMtileStart .. => false
  | .groupWatchdogFire .. => false
  | .gvQueueGrant .. => false
  | .engineBoxIssue .. => false
  | .boxWrite .. => false
  | .boxAck .. => false
  | .directedReadOwner .. => false
  | .directedReadDelivery .. => false
  | .darithPacketApply .. => false
  | .orderedPacketArrival .. => false
  | .darithOpenPacket .. => false
  | .orderedPacketResend .. => false
  | .orderedHeldAck .. => false
  | .parityUpdate .. => false
  | .routerHop .. => false
  | .laneLoss .. => false
  | .retrain .. => false
  | .linkTrainingDone .. => false
  | .flitCrcResend .. => false
  | .flitResendLimit .. => false
  | .fabricTimeout .. => false
  | .rclk .. => false
  | .rclkApply .. => false
  | .rclkPauseEnd .. => false
  | .xdieLoss .. => false
  | .fenceListWrite .. => false
  | .linkWeightWrite .. => false
  | .preemptionRequest .. => false
  | .preemptionSave .. => false
  | .swapOut .. => false
  | .swapIn .. => false
  | .pairItemCompare .. => false
  | .pairItemTimeout .. => false
  | .heartbeat .. => false
  | .diagnosisOpen .. => false
  | .pairAgreement .. => false
  | .neighbourProbe .. => false
  | .confirmationReply .. => false
  | .confirmationTimeout .. => false
  | .diagnosisRetry .. => false
  | .packageLossDiagnosis .. => false
  | .domainRestoreComplete .. => false
  | .stripeGroupRebuild => false
  | .watchdogFire .. => false
  | .release .. => false
  | .requeue .. => false
  | .kill .. => false
  | .saveaddr .. => false
  | .spareadd .. => false
  | .sparedel .. => false
  | .schedCmdReserved .. => false
  | .taskRetirement .. => false
  | .powerControlTick .. => false
  | .powerGood .. => false
  | .lcsChange .. => false
  | .controlRegisterWrite .. => false
  | .pairAgreementTimeout .. => false
  | .dieLoss .. => false
  | .softError .. => false
  | .packagePowerRemoved => false
  | .mtileSequencerStep .. => false
  | .gvRowComplete .. => false
  | .vchainGroupComplete .. => false

end Sys2Proof
end

