-- ==== Sys2Proof/Decode.lean ====
section
/-!
DEFINITION. The decoder of instruction words, total on any number below 2^32, and after it the encoder, both written
from the opcode map (05_encoding R101 to R121, Tables 5-1 to 5-9). A word that the map does not assign gives
none (R103); no unassigned word falls through to a neighbour, because every fixed bit of a row is tested.
-/
namespace Sys2Proof

/-- A field as a bounded number. -/
def finAt (w lo n : Nat) : Fin (2 ^ n) := ⟨fieldAt w lo n, Nat.mod_lt _ (Nat.two_pow_pos n)⟩

/-- A decoded term, if its fields keep the limits of WellFormed. -/
def checked (i : Instr) : Option Instr := if i.wf then some i else none

/-- Major 0x01, OP (05_encoding Table 5-2). -/
def decodeMajor01 (w : Nat) : Option Instr :=
  if fieldAt w 0 9 == 0 then checked (.add (finAt w 21 5) (finAt w 16 5) (finAt w 11 5) (bitAt w 10) (bitAt w 9))
  else if fieldAt w 0 9 == 1 then checked (.sub (finAt w 21 5) (finAt w 16 5) (finAt w 11 5) (bitAt w 10) (bitAt w 9))
  else if fieldAt w 0 9 == 2 then checked (.mul (finAt w 21 5) (finAt w 16 5) (finAt w 11 5) (bitAt w 10) (bitAt w 9))
  else if fieldAt w 0 9 == 3 then checked (.mulh (finAt w 21 5) (finAt w 16 5) (finAt w 11 5) (bitAt w 10) (bitAt w 9))
  else if fieldAt w 0 9 == 4 then checked (.mulhu (finAt w 21 5) (finAt w 16 5) (finAt w 11 5) (bitAt w 10) (bitAt w 9))
  else if fieldAt w 0 9 == 5 then checked (.div (finAt w 21 5) (finAt w 16 5) (finAt w 11 5) (bitAt w 10) (bitAt w 9))
  else if fieldAt w 0 9 == 6 then checked (.divu (finAt w 21 5) (finAt w 16 5) (finAt w 11 5) (bitAt w 10) (bitAt w 9))
  else if fieldAt w 0 9 == 7 then checked (.rem (finAt w 21 5) (finAt w 16 5) (finAt w 11 5) (bitAt w 10) (bitAt w 9))
  else if fieldAt w 0 9 == 8 then checked (.remu (finAt w 21 5) (finAt w 16 5) (finAt w 11 5) (bitAt w 10) (bitAt w 9))
  else if fieldAt w 0 9 == 9 then checked (.and (finAt w 21 5) (finAt w 16 5) (finAt w 11 5) (bitAt w 10) (bitAt w 9))
  else if fieldAt w 0 9 == 10 then checked (.or (finAt w 21 5) (finAt w 16 5) (finAt w 11 5) (bitAt w 10) (bitAt w 9))
  else if fieldAt w 0 9 == 11 then checked (.xor (finAt w 21 5) (finAt w 16 5) (finAt w 11 5) (bitAt w 10) (bitAt w 9))
  else if fieldAt w 0 9 == 12 then checked (.andn (finAt w 21 5) (finAt w 16 5) (finAt w 11 5) (bitAt w 10) (bitAt w 9))
  else if fieldAt w 0 9 == 13 then checked (.sll (finAt w 21 5) (finAt w 16 5) (finAt w 11 5) (bitAt w 10) (bitAt w 9))
  else if fieldAt w 0 9 == 14 then checked (.srl (finAt w 21 5) (finAt w 16 5) (finAt w 11 5) (bitAt w 10) (bitAt w 9))
  else if fieldAt w 0 9 == 15 then checked (.sra (finAt w 21 5) (finAt w 16 5) (finAt w 11 5) (bitAt w 10) (bitAt w 9))
  else if fieldAt w 0 9 == 16 then checked (.ror (finAt w 21 5) (finAt w 16 5) (finAt w 11 5) (bitAt w 10) (bitAt w 9))
  else if fieldAt w 0 9 == 17 then checked (.min (finAt w 21 5) (finAt w 16 5) (finAt w 11 5) (bitAt w 10) (bitAt w 9))
  else if fieldAt w 0 9 == 18 then checked (.max (finAt w 21 5) (finAt w 16 5) (finAt w 11 5) (bitAt w 10) (bitAt w 9))
  else if fieldAt w 0 9 == 19 then checked (.minu (finAt w 21 5) (finAt w 16 5) (finAt w 11 5) (bitAt w 10) (bitAt w 9))
  else if fieldAt w 0 9 == 20 then checked (.maxu (finAt w 21 5) (finAt w 16 5) (finAt w 11 5) (bitAt w 10) (bitAt w 9))
  else if fieldAt w 0 9 == 21 then checked (.slt (finAt w 21 5) (finAt w 16 5) (finAt w 11 5) (bitAt w 10) (bitAt w 9))
  else if fieldAt w 0 9 == 22 then checked (.sltu (finAt w 21 5) (finAt w 16 5) (finAt w 11 5) (bitAt w 10) (bitAt w 9))
  else if fieldAt w 0 9 == 23 then checked (.seq (finAt w 21 5) (finAt w 16 5) (finAt w 11 5) (bitAt w 10) (bitAt w 9))
  else if fieldAt w 0 9 == 24 then checked (.sel (finAt w 21 5) (finAt w 16 5) (finAt w 11 5) (bitAt w 10) (bitAt w 9))
  else if fieldAt w 0 10 == 25 && fieldAt w 11 5 == 0 then checked (.clz (finAt w 21 5) (finAt w 16 5) (bitAt w 10))
  else if fieldAt w 0 10 == 26 && fieldAt w 11 5 == 0 then checked (.ctz (finAt w 21 5) (finAt w 16 5) (bitAt w 10))
  else if fieldAt w 0 10 == 27 && fieldAt w 11 5 == 0 then checked (.popc (finAt w 21 5) (finAt w 16 5) (bitAt w 10))
  else if fieldAt w 0 10 == 28 && fieldAt w 11 5 == 0 then checked (.brev (finAt w 21 5) (finAt w 16 5) (bitAt w 10))
  else if fieldAt w 0 10 == 29 && fieldAt w 11 5 == 0 then checked (.bswap (finAt w 21 5) (finAt w 16 5) (bitAt w 10))
  else none

/-- Major 0x02, OPI (05_encoding Table 5-2). -/
def decodeMajor02 (w : Nat) : Option Instr :=
  if fieldAt w 11 4 == 0 then checked (.addi (finAt w 21 5) (finAt w 16 5) (bitAt w 15) (finAt w 0 11))
  else if fieldAt w 11 4 == 1 then checked (.andi (finAt w 21 5) (finAt w 16 5) (bitAt w 15) (finAt w 0 11))
  else if fieldAt w 11 4 == 2 then checked (.ori (finAt w 21 5) (finAt w 16 5) (bitAt w 15) (finAt w 0 11))
  else if fieldAt w 11 4 == 3 then checked (.xori (finAt w 21 5) (finAt w 16 5) (bitAt w 15) (finAt w 0 11))
  else if fieldAt w 11 4 == 4 then checked (.slti (finAt w 21 5) (finAt w 16 5) (bitAt w 15) (finAt w 0 11))
  else if fieldAt w 11 4 == 5 then checked (.sltiu (finAt w 21 5) (finAt w 16 5) (bitAt w 15) (finAt w 0 11))
  else if fieldAt w 6 9 == 192 then checked (.slli (finAt w 21 5) (finAt w 16 5) (bitAt w 15) (finAt w 0 6))
  else if fieldAt w 6 9 == 224 then checked (.srli (finAt w 21 5) (finAt w 16 5) (bitAt w 15) (finAt w 0 6))
  else if fieldAt w 6 9 == 256 then checked (.srai (finAt w 21 5) (finAt w 16 5) (bitAt w 15) (finAt w 0 6))
  else none

/-- Major 0x03, LHI (05_encoding Table 5-2). -/
def decodeMajor03 (w : Nat) : Option Instr := checked (.lhi (finAt w 21 5) (finAt w 0 21))

/-- Major 0x04, APC (05_encoding Table 5-2). -/
def decodeMajor04 (w : Nat) : Option Instr := checked (.apc (finAt w 21 5) (finAt w 0 21))

/-- Major 0x05, BIT (05_encoding Table 5-2). -/
def decodeMajor05 (w : Nat) : Option Instr :=
  if fieldAt w 12 3 == 0 then checked (.bfx (finAt w 21 5) (finAt w 16 5) (bitAt w 15) (finAt w 6 6) (finAt w 0 6))
  else if fieldAt w 12 3 == 2 then checked (.bfxs (finAt w 21 5) (finAt w 16 5) (bitAt w 15) (finAt w 6 6) (finAt w 0 6))
  else if fieldAt w 12 3 == 4 then checked (.bfi (finAt w 21 5) (finAt w 16 5) (bitAt w 15) (finAt w 6 6) (finAt w 0 6))
  else none

/-- Major 0x06, BBS (05_encoding Table 5-2). -/
def decodeMajor06 (w : Nat) : Option Instr :=
  if fieldAt w 0 9 == 0 && fieldAt w 21 5 == 0 then checked (.bbinit (finAt w 16 5) (finAt w 11 5) (bitAt w 10) (bitAt w 9))
  else if fieldAt w 6 15 == 1 then checked (.bbget (finAt w 21 5) (finAt w 0 6))
  else if fieldAt w 6 15 == 2 then checked (.bbpeek (finAt w 21 5) (finAt w 0 6))
  else if fieldAt w 6 20 == 3 then checked (.bbskip (finAt w 0 6))
  else if fieldAt w 6 20 == 4 then checked (.bbalign (finAt w 0 6))
  else if fieldAt w 6 4 == 5 && fieldAt w 11 5 == 0 && fieldAt w 21 5 == 0 then checked (.bbemit (finAt w 16 5) (bitAt w 10) (finAt w 0 6))
  else if fieldAt w 0 26 == 384 then checked (.bbflush)
  else if fieldAt w 0 21 == 448 then checked (.bbtell (finAt w 21 5))
  else none

/-- Major 0x08, BEQ (05_encoding Table 5-2). -/
def decodeMajor08 (w : Nat) : Option Instr := checked (.beq (finAt w 21 5) (finAt w 16 5) (finAt w 0 16))

/-- Major 0x09, BNE (05_encoding Table 5-2). -/
def decodeMajor09 (w : Nat) : Option Instr := checked (.bne (finAt w 21 5) (finAt w 16 5) (finAt w 0 16))

/-- Major 0x0A, BLT (05_encoding Table 5-2). -/
def decodeMajor0A (w : Nat) : Option Instr := checked (.blt (finAt w 21 5) (finAt w 16 5) (finAt w 0 16))

/-- Major 0x0B, BGE (05_encoding Table 5-2). -/
def decodeMajor0B (w : Nat) : Option Instr := checked (.bge (finAt w 21 5) (finAt w 16 5) (finAt w 0 16))

/-- Major 0x0C, BLTU (05_encoding Table 5-2). -/
def decodeMajor0C (w : Nat) : Option Instr := checked (.bltu (finAt w 21 5) (finAt w 16 5) (finAt w 0 16))

/-- Major 0x0D, BGEU (05_encoding Table 5-2). -/
def decodeMajor0D (w : Nat) : Option Instr := checked (.bgeu (finAt w 21 5) (finAt w 16 5) (finAt w 0 16))

/-- Major 0x0E, JAL (05_encoding Table 5-2). -/
def decodeMajor0E (w : Nat) : Option Instr := checked (.jal (finAt w 21 5) (finAt w 0 21))

/-- Major 0x0F, JALR (05_encoding Table 5-2). -/
def decodeMajor0F (w : Nat) : Option Instr :=
  if fieldAt w 11 4 == 0 then checked (.jalr (finAt w 21 5) (finAt w 16 5) (bitAt w 15) (finAt w 0 11))
  else none

/-- Major 0x10, LOAD (05_encoding Table 5-2). -/
def decodeMajor10 (w : Nat) : Option Instr :=
  if fieldAt w 12 3 == 0 then checked (.lb (finAt w 21 5) (finAt w 16 5) (bitAt w 15) (finAt w 0 12))
  else if fieldAt w 12 3 == 1 then checked (.lbs (finAt w 21 5) (finAt w 16 5) (bitAt w 15) (finAt w 0 12))
  else if fieldAt w 12 3 == 2 then checked (.lh (finAt w 21 5) (finAt w 16 5) (bitAt w 15) (finAt w 0 12))
  else if fieldAt w 12 3 == 3 then checked (.lhs (finAt w 21 5) (finAt w 16 5) (bitAt w 15) (finAt w 0 12))
  else if fieldAt w 12 3 == 4 then checked (.lw (finAt w 21 5) (finAt w 16 5) (bitAt w 15) (finAt w 0 12))
  else if fieldAt w 12 3 == 5 then checked (.lws (finAt w 21 5) (finAt w 16 5) (bitAt w 15) (finAt w 0 12))
  else if fieldAt w 12 3 == 6 then checked (.ld (finAt w 21 5) (finAt w 16 5) (bitAt w 15) (finAt w 0 12))
  else none

/-- Major 0x11, STORE (05_encoding Table 5-2). -/
def decodeMajor11 (w : Nat) : Option Instr :=
  if fieldAt w 12 3 == 0 then checked (.sb (finAt w 21 5) (finAt w 16 5) (bitAt w 15) (finAt w 0 12))
  else if fieldAt w 12 3 == 1 then checked (.sh (finAt w 21 5) (finAt w 16 5) (bitAt w 15) (finAt w 0 12))
  else if fieldAt w 12 3 == 2 then checked (.sw (finAt w 21 5) (finAt w 16 5) (bitAt w 15) (finAt w 0 12))
  else if fieldAt w 12 3 == 3 then checked (.sd (finAt w 21 5) (finAt w 16 5) (bitAt w 15) (finAt w 0 12))
  else none

/-- Major 0x12, FEMEM (05_encoding Table 5-2). -/
def decodeMajor12 (w : Nat) : Option Instr :=
  if fieldAt w 0 3 == 0 then checked (.ldfe (finAt w 21 5) (finAt w 16 5) (bitAt w 15) (finAt w 12 3) (finAt w 3 9))
  else if fieldAt w 0 3 == 1 then checked (.sdfe (finAt w 21 5) (finAt w 16 5) (bitAt w 15) (finAt w 12 3) (finAt w 3 9))
  else if fieldAt w 0 3 == 2 && fieldAt w 12 3 == 0 then checked (.feget (finAt w 21 5) (finAt w 16 5) (bitAt w 15) (finAt w 3 9))
  else if fieldAt w 0 3 == 3 && fieldAt w 12 3 == 0 then checked (.feset (finAt w 21 5) (finAt w 16 5) (bitAt w 15) (finAt w 3 9))
  else none

/-- Major 0x13, AMO (05_encoding Table 5-2). -/
def decodeMajor13 (w : Nat) : Option Instr :=
  if fieldAt w 0 4 == 0 && fieldAt w 5 4 == 0 then checked (.amoadd (finAt w 21 5) (finAt w 16 5) (finAt w 11 5) (bitAt w 10) (bitAt w 9) (bitAt w 4))
  else if fieldAt w 0 4 == 1 && fieldAt w 5 4 == 0 then checked (.amoswap (finAt w 21 5) (finAt w 16 5) (finAt w 11 5) (bitAt w 10) (bitAt w 9) (bitAt w 4))
  else if fieldAt w 0 4 == 2 && fieldAt w 5 4 == 0 then checked (.amocas (finAt w 21 5) (finAt w 16 5) (finAt w 11 5) (bitAt w 10) (bitAt w 9) (bitAt w 4))
  else if fieldAt w 0 4 == 3 && fieldAt w 5 4 == 0 then checked (.amoand (finAt w 21 5) (finAt w 16 5) (finAt w 11 5) (bitAt w 10) (bitAt w 9) (bitAt w 4))
  else if fieldAt w 0 4 == 4 && fieldAt w 5 4 == 0 then checked (.amoor (finAt w 21 5) (finAt w 16 5) (finAt w 11 5) (bitAt w 10) (bitAt w 9) (bitAt w 4))
  else if fieldAt w 0 4 == 5 && fieldAt w 5 4 == 0 then checked (.amoxor (finAt w 21 5) (finAt w 16 5) (finAt w 11 5) (bitAt w 10) (bitAt w 9) (bitAt w 4))
  else if fieldAt w 0 4 == 6 && fieldAt w 5 4 == 0 then checked (.amomin (finAt w 21 5) (finAt w 16 5) (finAt w 11 5) (bitAt w 10) (bitAt w 9) (bitAt w 4))
  else if fieldAt w 0 4 == 7 && fieldAt w 5 4 == 0 then checked (.amomax (finAt w 21 5) (finAt w 16 5) (finAt w 11 5) (bitAt w 10) (bitAt w 9) (bitAt w 4))
  else if fieldAt w 0 4 == 8 && fieldAt w 5 4 == 0 then checked (.amominu (finAt w 21 5) (finAt w 16 5) (finAt w 11 5) (bitAt w 10) (bitAt w 9) (bitAt w 4))
  else if fieldAt w 0 4 == 9 && fieldAt w 5 4 == 0 then checked (.amomaxu (finAt w 21 5) (finAt w 16 5) (finAt w 11 5) (bitAt w 10) (bitAt w 9) (bitAt w 4))
  else if fieldAt w 0 4 == 10 && fieldAt w 5 4 == 0 then checked (.amofadd (finAt w 21 5) (finAt w 16 5) (finAt w 11 5) (bitAt w 10) (bitAt w 9) (bitAt w 4))
  else none

/-- Major 0x14, REMOTE (05_encoding Table 5-2). -/
def decodeMajor14 (w : Nat) : Option Instr :=
  if fieldAt w 2 2 == 0 && fieldAt w 7 3 == 0 && fieldAt w 11 5 == 0 then checked (.rld (finAt w 21 5) (finAt w 16 5) (bitAt w 10) (finAt w 4 3) (finAt w 0 2))
  else if fieldAt w 2 7 == 32 && fieldAt w 21 5 == 0 then checked (.rst (finAt w 16 5) (finAt w 11 5) (bitAt w 10) (bitAt w 9) (finAt w 0 2))
  else if fieldAt w 0 4 == 0 && fieldAt w 7 2 == 2 && fieldAt w 21 5 == 0 then checked (.rstfe (finAt w 16 5) (finAt w 11 5) (bitAt w 10) (bitAt w 9) (finAt w 4 3))
  else if fieldAt w 5 4 == 12 then checked (.ramo (finAt w 21 5) (finAt w 16 5) (finAt w 11 5) (bitAt w 10) (bitAt w 9) (bitAt w 4) (finAt w 0 4))
  else none

/-- Major 0x15, SYNC (05_encoding Table 5-2). -/
def decodeMajor15 (w : Nat) : Option Instr :=
  if fieldAt w 3 13 == 0 then checked (.acq (finAt w 21 5) (finAt w 16 5) (finAt w 0 3))
  else if fieldAt w 3 13 == 512 then checked (.rel (finAt w 21 5) (finAt w 16 5) (finAt w 0 3))
  else if fieldAt w 3 23 == 1024 then checked (.fence (finAt w 0 3))
  else if fieldAt w 12 14 == 3 then checked (.qfence (finAt w 0 12))
  else if fieldAt w 0 16 == 16384 then checked (.bind (finAt w 21 5) (finAt w 16 5))
  else none

/-- Major 0x16, CACHE (05_encoding Table 5-2). -/
def decodeMajor16 (w : Nat) : Option Instr :=
  if fieldAt w 9 2 == 0 && fieldAt w 12 4 == 0 && fieldAt w 21 5 == 0 then checked (.ipf (finAt w 16 5) (bitAt w 11) (finAt w 0 9))
  else if fieldAt w 9 2 == 0 && fieldAt w 12 4 == 1 then checked (.ipin (finAt w 21 5) (finAt w 16 5) (bitAt w 11) (finAt w 0 9))
  else if fieldAt w 9 2 == 0 && fieldAt w 12 4 == 2 && fieldAt w 21 5 == 0 then checked (.iunpin (finAt w 16 5) (bitAt w 11) (finAt w 0 9))
  else if fieldAt w 9 7 == 24 && fieldAt w 21 5 == 0 then checked (.dpf (finAt w 16 5) (finAt w 0 9))
  else if fieldAt w 9 7 == 32 && fieldAt w 21 5 == 0 then checked (.cwb (finAt w 16 5) (finAt w 0 9))
  else if fieldAt w 10 6 == 20 && fieldAt w 21 5 == 0 then checked (.cinv (finAt w 16 5) (bitAt w 9) (finAt w 0 9))
  else none

/-- Major 0x18, FP (05_encoding Table 5-2). -/
def decodeMajor18 (w : Nat) : Option Instr :=
  if fieldAt w 5 4 == 0 then checked (.fadd (finAt w 21 5) (finAt w 16 5) (finAt w 11 5) (bitAt w 10) (bitAt w 9) (finAt w 3 2) (finAt w 0 3))
  else if fieldAt w 5 4 == 1 then checked (.fsub (finAt w 21 5) (finAt w 16 5) (finAt w 11 5) (bitAt w 10) (bitAt w 9) (finAt w 3 2) (finAt w 0 3))
  else if fieldAt w 5 4 == 2 then checked (.fmul (finAt w 21 5) (finAt w 16 5) (finAt w 11 5) (bitAt w 10) (bitAt w 9) (finAt w 3 2) (finAt w 0 3))
  else if fieldAt w 5 4 == 3 then checked (.fdiv (finAt w 21 5) (finAt w 16 5) (finAt w 11 5) (bitAt w 10) (bitAt w 9) (finAt w 3 2) (finAt w 0 3))
  else if fieldAt w 5 5 == 4 && fieldAt w 11 5 == 0 then checked (.fsqrt (finAt w 21 5) (finAt w 16 5) (bitAt w 10) (finAt w 3 2) (finAt w 0 3))
  else if fieldAt w 0 3 == 0 && fieldAt w 5 4 == 5 then checked (.fmin (finAt w 21 5) (finAt w 16 5) (finAt w 11 5) (bitAt w 10) (bitAt w 9) (finAt w 3 2))
  else if fieldAt w 0 3 == 0 && fieldAt w 5 4 == 6 then checked (.fmax (finAt w 21 5) (finAt w 16 5) (finAt w 11 5) (bitAt w 10) (bitAt w 9) (finAt w 3 2))
  else if fieldAt w 0 3 == 0 && fieldAt w 5 4 == 7 then checked (.fminm (finAt w 21 5) (finAt w 16 5) (finAt w 11 5) (bitAt w 10) (bitAt w 9) (finAt w 3 2))
  else if fieldAt w 0 3 == 0 && fieldAt w 5 4 == 8 then checked (.fmaxm (finAt w 21 5) (finAt w 16 5) (finAt w 11 5) (bitAt w 10) (bitAt w 9) (finAt w 3 2))
  else if fieldAt w 0 3 == 0 && fieldAt w 5 4 == 9 then checked (.feq (finAt w 21 5) (finAt w 16 5) (finAt w 11 5) (bitAt w 10) (bitAt w 9) (finAt w 3 2))
  else if fieldAt w 0 3 == 0 && fieldAt w 5 4 == 10 then checked (.flt (finAt w 21 5) (finAt w 16 5) (finAt w 11 5) (bitAt w 10) (bitAt w 9) (finAt w 3 2))
  else if fieldAt w 0 3 == 0 && fieldAt w 5 4 == 11 then checked (.fle (finAt w 21 5) (finAt w 16 5) (finAt w 11 5) (bitAt w 10) (bitAt w 9) (finAt w 3 2))
  else if fieldAt w 0 3 == 0 && fieldAt w 5 5 == 12 && fieldAt w 11 5 == 0 then checked (.fclass (finAt w 21 5) (finAt w 16 5) (bitAt w 10) (finAt w 3 2))
  else if fieldAt w 0 3 == 0 && fieldAt w 5 4 == 13 then checked (.fsgnj (finAt w 21 5) (finAt w 16 5) (finAt w 11 5) (bitAt w 10) (bitAt w 9) (finAt w 3 2))
  else if fieldAt w 0 3 == 0 && fieldAt w 5 4 == 14 then checked (.fsgnjn (finAt w 21 5) (finAt w 16 5) (finAt w 11 5) (bitAt w 10) (bitAt w 9) (finAt w 3 2))
  else if fieldAt w 0 3 == 0 && fieldAt w 5 4 == 15 then checked (.fsgnjx (finAt w 21 5) (finAt w 16 5) (finAt w 11 5) (bitAt w 10) (bitAt w 9) (finAt w 3 2))
  else none

/-- Major 0x19, FMA (05_encoding Table 5-2). -/
def decodeMajor19 (w : Nat) : Option Instr :=
  if fieldAt w 0 1 == 0 && fieldAt w 5 1 == 0 then checked (.fma (finAt w 21 5) (finAt w 16 5) (finAt w 11 5) (finAt w 6 5) (bitAt w 4) (finAt w 1 3))
  else if fieldAt w 0 1 == 0 && fieldAt w 5 1 == 1 then checked (.fms (finAt w 21 5) (finAt w 16 5) (finAt w 11 5) (finAt w 6 5) (bitAt w 4) (finAt w 1 3))
  else if fieldAt w 0 1 == 1 && fieldAt w 5 1 == 0 then checked (.fnms (finAt w 21 5) (finAt w 16 5) (finAt w 11 5) (finAt w 6 5) (bitAt w 4) (finAt w 1 3))
  else if fieldAt w 0 1 == 1 && fieldAt w 5 1 == 1 then checked (.fnma (finAt w 21 5) (finAt w 16 5) (finAt w 11 5) (finAt w 6 5) (bitAt w 4) (finAt w 1 3))
  else none

/-- Major 0x1A, FCVT (05_encoding Table 5-2). -/
def decodeMajor1A (w : Nat) : Option Instr :=
  if fieldAt w 9 1 == 0 && fieldAt w 13 3 == 0 then checked (.fcvt (finAt w 21 5) (finAt w 16 5) (finAt w 11 2) (bitAt w 10) (finAt w 6 3) (finAt w 3 3) (finAt w 0 3))
  else none

/-- Major 0x1B, SFU (05_encoding Table 5-2). -/
def decodeMajor1B (w : Nat) : Option Instr :=
  if fieldAt w 0 3 == 0 && fieldAt w 5 5 == 0 && fieldAt w 11 5 == 0 then checked (.fexp2 (finAt w 21 5) (finAt w 16 5) (bitAt w 10) (finAt w 3 2))
  else if fieldAt w 0 3 == 0 && fieldAt w 5 5 == 1 && fieldAt w 11 5 == 0 then checked (.flog2 (finAt w 21 5) (finAt w 16 5) (bitAt w 10) (finAt w 3 2))
  else if fieldAt w 0 3 == 0 && fieldAt w 5 5 == 2 && fieldAt w 11 5 == 0 then checked (.fexp (finAt w 21 5) (finAt w 16 5) (bitAt w 10) (finAt w 3 2))
  else if fieldAt w 0 3 == 0 && fieldAt w 5 5 == 3 && fieldAt w 11 5 == 0 then checked (.fln (finAt w 21 5) (finAt w 16 5) (bitAt w 10) (finAt w 3 2))
  else if fieldAt w 0 3 == 0 && fieldAt w 5 5 == 4 && fieldAt w 11 5 == 0 then checked (.frcp (finAt w 21 5) (finAt w 16 5) (bitAt w 10) (finAt w 3 2))
  else if fieldAt w 0 3 == 0 && fieldAt w 5 5 == 5 && fieldAt w 11 5 == 0 then checked (.frsq (finAt w 21 5) (finAt w 16 5) (bitAt w 10) (finAt w 3 2))
  else if fieldAt w 0 3 == 0 && fieldAt w 5 5 == 6 && fieldAt w 11 5 == 0 then checked (.fsin (finAt w 21 5) (finAt w 16 5) (bitAt w 10) (finAt w 3 2))
  else if fieldAt w 0 3 == 0 && fieldAt w 5 5 == 7 && fieldAt w 11 5 == 0 then checked (.fcos (finAt w 21 5) (finAt w 16 5) (bitAt w 10) (finAt w 3 2))
  else if fieldAt w 0 3 == 0 && fieldAt w 5 5 == 8 && fieldAt w 11 5 == 0 then checked (.ftanh (finAt w 21 5) (finAt w 16 5) (bitAt w 10) (finAt w 3 2))
  else if fieldAt w 0 3 == 0 && fieldAt w 5 5 == 9 && fieldAt w 11 5 == 0 then checked (.fsigm (finAt w 21 5) (finAt w 16 5) (bitAt w 10) (finAt w 3 2))
  else if fieldAt w 0 3 == 0 && fieldAt w 5 5 == 10 && fieldAt w 11 5 == 0 then checked (.ferf (finAt w 21 5) (finAt w 16 5) (bitAt w 10) (finAt w 3 2))
  else if fieldAt w 0 10 == 392 && fieldAt w 11 5 == 0 && fieldAt w 21 5 == 0 then checked (.xclr (finAt w 16 5) (bitAt w 10))
  else if fieldAt w 0 3 == 0 && fieldAt w 5 4 == 13 && fieldAt w 21 5 == 0 then checked (.xacc (finAt w 16 5) (finAt w 11 5) (bitAt w 10) (bitAt w 9) (finAt w 3 2))
  else if fieldAt w 5 5 == 14 && fieldAt w 11 5 == 0 then checked (.xrnd (finAt w 21 5) (finAt w 16 5) (bitAt w 10) (finAt w 3 2) (finAt w 0 3))
  else none

/-- Major 0x20, VEC, arithmetic (05_encoding Table 5-2). -/
def decodeMajor20 (w : Nat) : Option Instr :=
  if fieldAt w 3 8 == 0 && fieldAt w 15 1 == 0 && fieldAt w 20 1 == 0 && fieldAt w 25 1 == 0 then checked (.vadd (finAt w 21 4) (finAt w 16 4) (finAt w 11 4) (finAt w 0 3))
  else if fieldAt w 3 8 == 1 && fieldAt w 15 1 == 0 && fieldAt w 20 1 == 0 && fieldAt w 25 1 == 0 then checked (.vsub (finAt w 21 4) (finAt w 16 4) (finAt w 11 4) (finAt w 0 3))
  else if fieldAt w 3 8 == 2 && fieldAt w 15 1 == 0 && fieldAt w 20 1 == 0 && fieldAt w 25 1 == 0 then checked (.vmul (finAt w 21 4) (finAt w 16 4) (finAt w 11 4) (finAt w 0 3))
  else if fieldAt w 3 8 == 3 && fieldAt w 15 1 == 0 && fieldAt w 20 1 == 0 && fieldAt w 25 1 == 0 then checked (.vfma (finAt w 21 4) (finAt w 16 4) (finAt w 11 4) (finAt w 0 3))
  else if fieldAt w 3 8 == 4 && fieldAt w 15 1 == 0 && fieldAt w 20 1 == 0 && fieldAt w 25 1 == 0 then checked (.vmin (finAt w 21 4) (finAt w 16 4) (finAt w 11 4) (finAt w 0 3))
  else if fieldAt w 3 8 == 5 && fieldAt w 15 1 == 0 && fieldAt w 20 1 == 0 && fieldAt w 25 1 == 0 then checked (.vmax (finAt w 21 4) (finAt w 16 4) (finAt w 11 4) (finAt w 0 3))
  else if fieldAt w 3 8 == 6 && fieldAt w 15 1 == 0 && fieldAt w 20 1 == 0 && fieldAt w 25 1 == 0 then checked (.vand (finAt w 21 4) (finAt w 16 4) (finAt w 11 4) (finAt w 0 3))
  else if fieldAt w 3 8 == 7 && fieldAt w 15 1 == 0 && fieldAt w 20 1 == 0 && fieldAt w 25 1 == 0 then checked (.vor (finAt w 21 4) (finAt w 16 4) (finAt w 11 4) (finAt w 0 3))
  else if fieldAt w 3 8 == 8 && fieldAt w 15 1 == 0 && fieldAt w 20 1 == 0 && fieldAt w 25 1 == 0 then checked (.vxor (finAt w 21 4) (finAt w 16 4) (finAt w 11 4) (finAt w 0 3))
  else if fieldAt w 3 8 == 9 && fieldAt w 15 1 == 0 && fieldAt w 20 1 == 0 && fieldAt w 25 1 == 0 then checked (.vshl (finAt w 21 4) (finAt w 16 4) (finAt w 11 4) (finAt w 0 3))
  else if fieldAt w 3 8 == 10 && fieldAt w 15 1 == 0 && fieldAt w 20 1 == 0 && fieldAt w 25 1 == 0 then checked (.vshr (finAt w 21 4) (finAt w 16 4) (finAt w 11 4) (finAt w 0 3))
  else if fieldAt w 3 8 == 11 && fieldAt w 15 1 == 0 && fieldAt w 20 1 == 0 && fieldAt w 25 1 == 0 then checked (.vcmp (finAt w 21 4) (finAt w 16 4) (finAt w 11 4) (finAt w 0 3))
  else if fieldAt w 3 8 == 12 && fieldAt w 15 1 == 0 && fieldAt w 20 1 == 0 && fieldAt w 25 1 == 0 then checked (.vsel (finAt w 21 4) (finAt w 16 4) (finAt w 11 4) (finAt w 0 3))
  else if fieldAt w 3 8 == 13 && fieldAt w 15 1 == 0 && fieldAt w 20 1 == 0 && fieldAt w 25 1 == 0 then checked (.vperm (finAt w 21 4) (finAt w 16 4) (finAt w 11 4) (finAt w 0 3))
  else if fieldAt w 3 13 == 14 && fieldAt w 20 1 == 0 && fieldAt w 25 1 == 0 then checked (.vmov (finAt w 21 4) (finAt w 16 4) (finAt w 0 3))
  else if fieldAt w 3 7 == 15 && fieldAt w 11 5 == 0 && fieldAt w 25 1 == 0 then checked (.vbcst (finAt w 21 4) (finAt w 16 5) (bitAt w 10) (finAt w 0 3))
  else if fieldAt w 3 13 == 16 && fieldAt w 20 1 == 0 then checked (.vredadd (finAt w 21 5) (finAt w 16 4) (finAt w 0 3))
  else if fieldAt w 3 13 == 17 && fieldAt w 20 1 == 0 then checked (.vredmax (finAt w 21 5) (finAt w 16 4) (finAt w 0 3))
  else if fieldAt w 3 13 == 18 && fieldAt w 20 1 == 0 then checked (.vredmin (finAt w 21 5) (finAt w 16 4) (finAt w 0 3))
  else if fieldAt w 3 8 == 19 && fieldAt w 14 2 == 0 && fieldAt w 20 1 == 0 && fieldAt w 25 1 == 0 then checked (.vcvt (finAt w 21 4) (finAt w 16 4) (finAt w 11 3) (finAt w 0 3))
  else if fieldAt w 0 9 == 160 && fieldAt w 10 1 == 0 && fieldAt w 20 1 == 0 && fieldAt w 25 1 == 0 then checked (.vqnt (finAt w 21 4) (finAt w 16 4) (finAt w 11 5) (bitAt w 9))
  else if fieldAt w 0 16 == 168 && fieldAt w 20 1 == 0 then checked (.vmaxx (finAt w 21 5) (finAt w 16 4))
  else if fieldAt w 3 13 == 22 && fieldAt w 20 1 == 0 && fieldAt w 25 1 == 0 then checked (.vexp (finAt w 21 4) (finAt w 16 4) (finAt w 0 3))
  else if fieldAt w 3 13 == 23 && fieldAt w 20 1 == 0 && fieldAt w 25 1 == 0 then checked (.vln (finAt w 21 4) (finAt w 16 4) (finAt w 0 3))
  else if fieldAt w 3 13 == 24 && fieldAt w 20 1 == 0 && fieldAt w 25 1 == 0 then checked (.vrcp (finAt w 21 4) (finAt w 16 4) (finAt w 0 3))
  else if fieldAt w 3 13 == 25 && fieldAt w 20 1 == 0 && fieldAt w 25 1 == 0 then checked (.vrsq (finAt w 21 4) (finAt w 16 4) (finAt w 0 3))
  else if fieldAt w 3 13 == 26 && fieldAt w 20 1 == 0 && fieldAt w 25 1 == 0 then checked (.vtanh (finAt w 21 4) (finAt w 16 4) (finAt w 0 3))
  else none

/-- Major 0x21, VEC, claim and memory (05_encoding Table 5-2). -/
def decodeMajor21 (w : Nat) : Option Instr :=
  if fieldAt w 0 10 == 0 && fieldAt w 11 5 == 0 then checked (.vclaim (finAt w 21 5) (finAt w 16 5) (bitAt w 10))
  else if fieldAt w 0 10 == 1 && fieldAt w 11 5 == 0 then checked (.vreneg (finAt w 21 5) (finAt w 16 5) (bitAt w 10))
  else if fieldAt w 0 26 == 2 then checked (.vrel)
  else if fieldAt w 0 10 == 8 && fieldAt w 11 5 == 0 && fieldAt w 25 1 == 0 then checked (.vld (finAt w 21 4) (finAt w 16 5) (bitAt w 10))
  else if fieldAt w 0 9 == 9 && fieldAt w 25 1 == 0 then checked (.vlds (finAt w 21 4) (finAt w 16 5) (finAt w 11 5) (bitAt w 10) (bitAt w 9))
  else if fieldAt w 0 10 == 10 && fieldAt w 15 1 == 0 && fieldAt w 25 1 == 0 then checked (.vgth (finAt w 21 4) (finAt w 16 5) (finAt w 11 4) (bitAt w 10))
  else if fieldAt w 0 10 == 12 && fieldAt w 11 5 == 0 && fieldAt w 25 1 == 0 then checked (.vst (finAt w 21 4) (finAt w 16 5) (bitAt w 10))
  else if fieldAt w 0 9 == 13 && fieldAt w 25 1 == 0 then checked (.vsts (finAt w 21 4) (finAt w 16 5) (finAt w 11 5) (bitAt w 10) (bitAt w 9))
  else if fieldAt w 0 10 == 14 && fieldAt w 15 1 == 0 && fieldAt w 25 1 == 0 then checked (.vsct (finAt w 21 4) (finAt w 16 5) (finAt w 11 4) (bitAt w 10))
  else if fieldAt w 0 10 == 16 && fieldAt w 11 5 == 0 && fieldAt w 21 5 == 0 then checked (.vchain (finAt w 16 5) (bitAt w 10))
  else none

/-- Major 0x22, MAT (05_encoding Table 5-2). -/
def decodeMajor22 (w : Nat) : Option Instr :=
  if fieldAt w 0 5 == 0 && fieldAt w 18 8 == 0 then checked (.mcfg (finAt w 10 8) (finAt w 5 5))
  else if fieldAt w 21 5 == 1 then checked (.mldb (finAt w 18 3) (finAt w 10 8) (finAt w 5 5) (finAt w 0 5))
  else if fieldAt w 21 5 == 2 then checked (.mlda (finAt w 18 3) (finAt w 10 8) (finAt w 5 5) (finAt w 0 5))
  else if fieldAt w 21 5 == 3 then checked (.mm16 (finAt w 18 3) (finAt w 10 8) (finAt w 5 5) (finAt w 0 5))
  else if fieldAt w 0 5 == 0 && fieldAt w 21 5 == 4 then checked (.mtile (finAt w 18 3) (finAt w 10 8) (finAt w 5 5))
  else if fieldAt w 21 5 == 5 then checked (.mzero (finAt w 18 3) (finAt w 10 8) (finAt w 5 5) (finAt w 0 5))
  else if fieldAt w 21 5 == 6 then checked (.mstc (finAt w 18 3) (finAt w 10 8) (finAt w 5 5) (finAt w 0 5))
  else if fieldAt w 18 8 == 56 then checked (.mprog (finAt w 10 8) (finAt w 5 5) (finAt w 0 5))
  else if fieldAt w 0 5 == 0 && fieldAt w 21 5 == 8 then checked (.mjoin (finAt w 18 3) (finAt w 10 8) (finAt w 5 5))
  else none

/-- Major 0x23, GV (05_encoding Table 5-2). -/
def decodeMajor23 (w : Nat) : Option Instr :=
  if fieldAt w 21 5 == 0 then checked (.mgv (finAt w 18 3) (finAt w 10 8) (finAt w 5 5) (finAt w 0 5))
  else if fieldAt w 21 5 == 1 then checked (.mgvb (finAt w 18 3) (finAt w 10 8) (finAt w 5 5) (finAt w 0 5))
  else if fieldAt w 21 5 == 2 then checked (.mcbt (finAt w 18 3) (finAt w 10 8) (finAt w 5 5) (finAt w 0 5))
  else none

/-- Major 0x24, CPY (05_encoding Table 5-2). -/
def decodeMajor24 (w : Nat) : Option Instr :=
  if fieldAt w 21 5 == 0 then checked (.send (finAt w 18 3) (finAt w 10 8) (finAt w 5 5) (finAt w 0 5))
  else if fieldAt w 21 5 == 1 then checked (.sendx (finAt w 18 3) (finAt w 10 8) (finAt w 5 5) (finAt w 0 5))
  else if fieldAt w 21 5 == 2 then checked (.dget (finAt w 18 3) (finAt w 10 8) (finAt w 5 5) (finAt w 0 5))
  else if fieldAt w 21 5 == 3 then checked (.dgetl (finAt w 18 3) (finAt w 10 8) (finAt w 5 5) (finAt w 0 5))
  else if fieldAt w 21 5 == 4 then checked (.darith (finAt w 18 3) (finAt w 10 8) (finAt w 5 5) (finAt w 0 5))
  else if fieldAt w 21 5 == 5 then checked (.cfollow (finAt w 18 3) (finAt w 10 8) (finAt w 5 5) (finAt w 0 5))
  else if fieldAt w 21 5 == 6 then checked (.cquery (finAt w 18 3) (finAt w 10 8) (finAt w 5 5) (finAt w 0 5))
  else if fieldAt w 0 5 == 0 && fieldAt w 21 5 == 7 then checked (.ccancel (finAt w 18 3) (finAt w 10 8) (finAt w 5 5))
  else none

/-- Major 0x25, XFM (05_encoding Table 5-2). -/
def decodeMajor25 (w : Nat) : Option Instr :=
  if fieldAt w 21 5 == 0 then checked (.xreq (finAt w 18 3) (finAt w 10 8) (finAt w 5 5) (finAt w 0 5))
  else if fieldAt w 21 5 == 1 then checked (.xpoll (finAt w 18 3) (finAt w 10 8) (finAt w 5 5) (finAt w 0 5))
  else if fieldAt w 21 5 == 2 then checked (.xres (finAt w 18 3) (finAt w 10 8) (finAt w 5 5) (finAt w 0 5))
  else none

/-- Major 0x26, ENG (05_encoding Table 5-2). -/
def decodeMajor26 (w : Nat) : Option Instr :=
  if fieldAt w 0 5 == 0 && fieldAt w 24 2 == 0 then checked (.engw (finAt w 18 6) (finAt w 10 8) (finAt w 5 5))
  else if fieldAt w 5 5 == 0 && fieldAt w 24 2 == 1 then checked (.engr (finAt w 18 6) (finAt w 10 8) (finAt w 0 5))
  else none

/-- Major 0x27, TOK (05_encoding Table 5-2). -/
def decodeMajor27 (w : Nat) : Option Instr :=
  if fieldAt w 0 10 == 0 && fieldAt w 18 8 == 0 then checked (.wait (finAt w 10 8))
  else if fieldAt w 21 5 == 1 then checked (.tokq (finAt w 18 3) (finAt w 10 8) (finAt w 5 5) (finAt w 0 5))
  else none

/-- Major 0x30, SYS (05_encoding Table 5-2). -/
def decodeMajor30 (w : Nat) : Option Instr :=
  if fieldAt w 12 14 == 0 then checked (.svc (finAt w 0 12))
  else if fieldAt w 12 14 == 1 then checked (.brk (finAt w 0 12))
  else if fieldAt w 0 26 == 8192 then checked (.eret)
  else if fieldAt w 12 9 == 3 then checked (.csrr (finAt w 21 5) (finAt w 0 12))
  else if fieldAt w 12 4 == 4 then checked (.csrw (finAt w 21 5) (finAt w 16 5) (finAt w 0 12))
  else if fieldAt w 12 14 == 5 then checked (.yield (finAt w 0 12))
  else if fieldAt w 5 16 == 768 then checked (.empty (finAt w 21 5) (finAt w 0 5))
  else if fieldAt w 0 26 == 28672 then checked (.halt)
  else none

/-- Major 0x31, TASK (05_encoding Table 5-2). -/
def decodeMajor31 (w : Nat) : Option Instr :=
  if fieldAt w 0 16 == 0 then checked (.spawn (finAt w 21 5) (finAt w 16 5))
  else if fieldAt w 12 14 == 1 then checked (.tdone (finAt w 0 12))
  else if fieldAt w 0 16 == 8192 then checked (.cdopen (finAt w 21 5) (finAt w 16 5))
  else if fieldAt w 8 8 == 48 then checked (.cdpres (finAt w 21 5) (finAt w 16 5) (finAt w 0 8))
  else if fieldAt w 0 16 == 16384 then checked (.cdclose (finAt w 21 5) (finAt w 16 5))
  else if fieldAt w 0 21 == 20480 then checked (.pair (finAt w 21 5))
  else if fieldAt w 0 21 == 24576 then checked (.unpair (finAt w 21 5))
  else if fieldAt w 6 10 == 448 then checked (.rcommit (finAt w 21 5) (finAt w 16 5) (finAt w 0 6))
  else if fieldAt w 9 7 == 64 then checked (.aswap (finAt w 21 5) (finAt w 16 5) (bitAt w 8) (finAt w 0 8))
  else none

/-- The decoder: the major opcode w[31:26] selects the format and the group (05_encoding R101, R104).
Majors 0x00, 0x07, 0x17, 0x1C to 0x1F, 0x28 to 0x2F and 0x32 to 0x3F are unassigned. -/
def decode (w : Nat) : Option Instr :=
  match w / 67108864 with
  | 1 => decodeMajor01 w
  | 2 => decodeMajor02 w
  | 3 => decodeMajor03 w
  | 4 => decodeMajor04 w
  | 5 => decodeMajor05 w
  | 6 => decodeMajor06 w
  | 8 => decodeMajor08 w
  | 9 => decodeMajor09 w
  | 10 => decodeMajor0A w
  | 11 => decodeMajor0B w
  | 12 => decodeMajor0C w
  | 13 => decodeMajor0D w
  | 14 => decodeMajor0E w
  | 15 => decodeMajor0F w
  | 16 => decodeMajor10 w
  | 17 => decodeMajor11 w
  | 18 => decodeMajor12 w
  | 19 => decodeMajor13 w
  | 20 => decodeMajor14 w
  | 21 => decodeMajor15 w
  | 22 => decodeMajor16 w
  | 24 => decodeMajor18 w
  | 25 => decodeMajor19 w
  | 26 => decodeMajor1A w
  | 27 => decodeMajor1B w
  | 32 => decodeMajor20 w
  | 33 => decodeMajor21 w
  | 34 => decodeMajor22 w
  | 35 => decodeMajor23 w
  | 36 => decodeMajor24 w
  | 37 => decodeMajor25 w
  | 38 => decodeMajor26 w
  | 39 => decodeMajor27 w
  | 48 => decodeMajor30 w
  | 49 => decodeMajor31 w
  | _ => none

/-- The word of an instruction, from the same encoding tables; the steps of other agents have none. -/
def encode : Instr → Option Nat
  | .add d a b t u => some (0x4000000 + d.val * 2097152 + a.val * 65536 + b.val * 2048 + boolNat t * 1024 + boolNat u * 512)
  | .sub d a b t u => some (0x4000001 + d.val * 2097152 + a.val * 65536 + b.val * 2048 + boolNat t * 1024 + boolNat u * 512)
  | .mul d a b t u => some (0x4000002 + d.val * 2097152 + a.val * 65536 + b.val * 2048 + boolNat t * 1024 + boolNat u * 512)
  | .mulh d a b t u => some (0x4000003 + d.val * 2097152 + a.val * 65536 + b.val * 2048 + boolNat t * 1024 + boolNat u * 512)
  | .mulhu d a b t u => some (0x4000004 + d.val * 2097152 + a.val * 65536 + b.val * 2048 + boolNat t * 1024 + boolNat u * 512)
  | .div d a b t u => some (0x4000005 + d.val * 2097152 + a.val * 65536 + b.val * 2048 + boolNat t * 1024 + boolNat u * 512)
  | .divu d a b t u => some (0x4000006 + d.val * 2097152 + a.val * 65536 + b.val * 2048 + boolNat t * 1024 + boolNat u * 512)
  | .rem d a b t u => some (0x4000007 + d.val * 2097152 + a.val * 65536 + b.val * 2048 + boolNat t * 1024 + boolNat u * 512)
  | .remu d a b t u => some (0x4000008 + d.val * 2097152 + a.val * 65536 + b.val * 2048 + boolNat t * 1024 + boolNat u * 512)
  | .and d a b t u => some (0x4000009 + d.val * 2097152 + a.val * 65536 + b.val * 2048 + boolNat t * 1024 + boolNat u * 512)
  | .or d a b t u => some (0x400000A + d.val * 2097152 + a.val * 65536 + b.val * 2048 + boolNat t * 1024 + boolNat u * 512)
  | .xor d a b t u => some (0x400000B + d.val * 2097152 + a.val * 65536 + b.val * 2048 + boolNat t * 1024 + boolNat u * 512)
  | .andn d a b t u => some (0x400000C + d.val * 2097152 + a.val * 65536 + b.val * 2048 + boolNat t * 1024 + boolNat u * 512)
  | .sll d a b t u => some (0x400000D + d.val * 2097152 + a.val * 65536 + b.val * 2048 + boolNat t * 1024 + boolNat u * 512)
  | .srl d a b t u => some (0x400000E + d.val * 2097152 + a.val * 65536 + b.val * 2048 + boolNat t * 1024 + boolNat u * 512)
  | .sra d a b t u => some (0x400000F + d.val * 2097152 + a.val * 65536 + b.val * 2048 + boolNat t * 1024 + boolNat u * 512)
  | .ror d a b t u => some (0x4000010 + d.val * 2097152 + a.val * 65536 + b.val * 2048 + boolNat t * 1024 + boolNat u * 512)
  | .min d a b t u => some (0x4000011 + d.val * 2097152 + a.val * 65536 + b.val * 2048 + boolNat t * 1024 + boolNat u * 512)
  | .max d a b t u => some (0x4000012 + d.val * 2097152 + a.val * 65536 + b.val * 2048 + boolNat t * 1024 + boolNat u * 512)
  | .minu d a b t u => some (0x4000013 + d.val * 2097152 + a.val * 65536 + b.val * 2048 + boolNat t * 1024 + boolNat u * 512)
  | .maxu d a b t u => some (0x4000014 + d.val * 2097152 + a.val * 65536 + b.val * 2048 + boolNat t * 1024 + boolNat u * 512)
  | .slt d a b t u => some (0x4000015 + d.val * 2097152 + a.val * 65536 + b.val * 2048 + boolNat t * 1024 + boolNat u * 512)
  | .sltu d a b t u => some (0x4000016 + d.val * 2097152 + a.val * 65536 + b.val * 2048 + boolNat t * 1024 + boolNat u * 512)
  | .seq d a b t u => some (0x4000017 + d.val * 2097152 + a.val * 65536 + b.val * 2048 + boolNat t * 1024 + boolNat u * 512)
  | .sel d a b t u => some (0x4000018 + d.val * 2097152 + a.val * 65536 + b.val * 2048 + boolNat t * 1024 + boolNat u * 512)
  | .clz d a t => some (0x4000019 + d.val * 2097152 + a.val * 65536 + boolNat t * 1024)
  | .ctz d a t => some (0x400001A + d.val * 2097152 + a.val * 65536 + boolNat t * 1024)
  | .popc d a t => some (0x400001B + d.val * 2097152 + a.val * 65536 + boolNat t * 1024)
  | .brev d a t => some (0x400001C + d.val * 2097152 + a.val * 65536 + boolNat t * 1024)
  | .bswap d a t => some (0x400001D + d.val * 2097152 + a.val * 65536 + boolNat t * 1024)
  | .addi d a t i => some (0x8000000 + d.val * 2097152 + a.val * 65536 + boolNat t * 32768 + i.val)
  | .andi d a t i => some (0x8000800 + d.val * 2097152 + a.val * 65536 + boolNat t * 32768 + i.val)
  | .ori d a t i => some (0x8001000 + d.val * 2097152 + a.val * 65536 + boolNat t * 32768 + i.val)
  | .xori d a t i => some (0x8001800 + d.val * 2097152 + a.val * 65536 + boolNat t * 32768 + i.val)
  | .slti d a t i => some (0x8002000 + d.val * 2097152 + a.val * 65536 + boolNat t * 32768 + i.val)
  | .sltiu d a t i => some (0x8002800 + d.val * 2097152 + a.val * 65536 + boolNat t * 32768 + i.val)
  | .slli d a t i => some (0x8003000 + d.val * 2097152 + a.val * 65536 + boolNat t * 32768 + i.val)
  | .srli d a t i => some (0x8003800 + d.val * 2097152 + a.val * 65536 + boolNat t * 32768 + i.val)
  | .srai d a t i => some (0x8004000 + d.val * 2097152 + a.val * 65536 + boolNat t * 32768 + i.val)
  | .lhi d i => some (0xC000000 + d.val * 2097152 + i.val)
  | .apc d i => some (0x10000000 + d.val * 2097152 + i.val)
  | .bfx d a t w p => some (0x14000000 + d.val * 2097152 + a.val * 65536 + boolNat t * 32768 + w.val * 64 + p.val)
  | .bfxs d a t w p => some (0x14002000 + d.val * 2097152 + a.val * 65536 + boolNat t * 32768 + w.val * 64 + p.val)
  | .bfi d a t w p => some (0x14004000 + d.val * 2097152 + a.val * 65536 + boolNat t * 32768 + w.val * 64 + p.val)
  | .bbinit a b t u => some (0x18000000 + a.val * 65536 + b.val * 2048 + boolNat t * 1024 + boolNat u * 512)
  | .bbget d n => some (0x18000040 + d.val * 2097152 + n.val)
  | .bbpeek d n => some (0x18000080 + d.val * 2097152 + n.val)
  | .bbskip n => some (0x180000C0 + n.val)
  | .bbalign n => some (0x18000100 + n.val)
  | .bbemit a t n => some (0x18000140 + a.val * 65536 + boolNat t * 1024 + n.val)
  | .bbflush => some (0x18000180)
  | .bbtell d => some (0x180001C0 + d.val * 2097152)
  | .beq a b o => some (0x20000000 + a.val * 2097152 + b.val * 65536 + o.val)
  | .bne a b o => some (0x24000000 + a.val * 2097152 + b.val * 65536 + o.val)
  | .blt a b o => some (0x28000000 + a.val * 2097152 + b.val * 65536 + o.val)
  | .bge a b o => some (0x2C000000 + a.val * 2097152 + b.val * 65536 + o.val)
  | .bltu a b o => some (0x30000000 + a.val * 2097152 + b.val * 65536 + o.val)
  | .bgeu a b o => some (0x34000000 + a.val * 2097152 + b.val * 65536 + o.val)
  | .jal d o => some (0x38000000 + d.val * 2097152 + o.val)
  | .jalr d a t i => some (0x3C000000 + d.val * 2097152 + a.val * 65536 + boolNat t * 32768 + i.val)
  | .lb d a t i => some (0x40000000 + d.val * 2097152 + a.val * 65536 + boolNat t * 32768 + i.val)
  | .lbs d a t i => some (0x40001000 + d.val * 2097152 + a.val * 65536 + boolNat t * 32768 + i.val)
  | .lh d a t i => some (0x40002000 + d.val * 2097152 + a.val * 65536 + boolNat t * 32768 + i.val)
  | .lhs d a t i => some (0x40003000 + d.val * 2097152 + a.val * 65536 + boolNat t * 32768 + i.val)
  | .lw d a t i => some (0x40004000 + d.val * 2097152 + a.val * 65536 + boolNat t * 32768 + i.val)
  | .lws d a t i => some (0x40005000 + d.val * 2097152 + a.val * 65536 + boolNat t * 32768 + i.val)
  | .ld d a t i => some (0x40006000 + d.val * 2097152 + a.val * 65536 + boolNat t * 32768 + i.val)
  | .sb d a t i => some (0x44000000 + d.val * 2097152 + a.val * 65536 + boolNat t * 32768 + i.val)
  | .sh d a t i => some (0x44001000 + d.val * 2097152 + a.val * 65536 + boolNat t * 32768 + i.val)
  | .sw d a t i => some (0x44002000 + d.val * 2097152 + a.val * 65536 + boolNat t * 32768 + i.val)
  | .sd d a t i => some (0x44003000 + d.val * 2097152 + a.val * 65536 + boolNat t * 32768 + i.val)
  | .ldfe d a t m o => some (0x48000000 + d.val * 2097152 + a.val * 65536 + boolNat t * 32768 + m.val * 4096 + o.val * 8)
  | .sdfe d a t m o => some (0x48000001 + d.val * 2097152 + a.val * 65536 + boolNat t * 32768 + m.val * 4096 + o.val * 8)
  | .feget d a t o => some (0x48000002 + d.val * 2097152 + a.val * 65536 + boolNat t * 32768 + o.val * 8)
  | .feset d a t o => some (0x48000003 + d.val * 2097152 + a.val * 65536 + boolNat t * 32768 + o.val * 8)
  | .amoadd d a b t u w => some (0x4C000000 + d.val * 2097152 + a.val * 65536 + b.val * 2048 + boolNat t * 1024 + boolNat u * 512 + boolNat w * 16)
  | .amoswap d a b t u w => some (0x4C000001 + d.val * 2097152 + a.val * 65536 + b.val * 2048 + boolNat t * 1024 + boolNat u * 512 + boolNat w * 16)
  | .amocas d a b t u w => some (0x4C000002 + d.val * 2097152 + a.val * 65536 + b.val * 2048 + boolNat t * 1024 + boolNat u * 512 + boolNat w * 16)
  | .amoand d a b t u w => some (0x4C000003 + d.val * 2097152 + a.val * 65536 + b.val * 2048 + boolNat t * 1024 + boolNat u * 512 + boolNat w * 16)
  | .amoor d a b t u w => some (0x4C000004 + d.val * 2097152 + a.val * 65536 + b.val * 2048 + boolNat t * 1024 + boolNat u * 512 + boolNat w * 16)
  | .amoxor d a b t u w => some (0x4C000005 + d.val * 2097152 + a.val * 65536 + b.val * 2048 + boolNat t * 1024 + boolNat u * 512 + boolNat w * 16)
  | .amomin d a b t u w => some (0x4C000006 + d.val * 2097152 + a.val * 65536 + b.val * 2048 + boolNat t * 1024 + boolNat u * 512 + boolNat w * 16)
  | .amomax d a b t u w => some (0x4C000007 + d.val * 2097152 + a.val * 65536 + b.val * 2048 + boolNat t * 1024 + boolNat u * 512 + boolNat w * 16)
  | .amominu d a b t u w => some (0x4C000008 + d.val * 2097152 + a.val * 65536 + b.val * 2048 + boolNat t * 1024 + boolNat u * 512 + boolNat w * 16)
  | .amomaxu d a b t u w => some (0x4C000009 + d.val * 2097152 + a.val * 65536 + b.val * 2048 + boolNat t * 1024 + boolNat u * 512 + boolNat w * 16)
  | .amofadd d a b t u p => some (0x4C00000A + d.val * 2097152 + a.val * 65536 + b.val * 2048 + boolNat t * 1024 + boolNat u * 512 + boolNat p * 16)
  | .rld d a t m w => some (0x50000000 + d.val * 2097152 + a.val * 65536 + boolNat t * 1024 + m.val * 16 + w.val)
  | .rst a b t u w => some (0x50000080 + a.val * 65536 + b.val * 2048 + boolNat t * 1024 + boolNat u * 512 + w.val)
  | .rstfe a b t u m => some (0x50000100 + a.val * 65536 + b.val * 2048 + boolNat t * 1024 + boolNat u * 512 + m.val * 16)
  | .ramo d a b t u w f => some (0x50000180 + d.val * 2097152 + a.val * 65536 + b.val * 2048 + boolNat t * 1024 + boolNat u * 512 + boolNat w * 16 + f.val)
  | .acq d a s => some (0x54000000 + d.val * 2097152 + a.val * 65536 + s.val)
  | .rel d a s => some (0x54001000 + d.val * 2097152 + a.val * 65536 + s.val)
  | .fence s => some (0x54002000 + s.val)
  | .qfence m => some (0x54003000 + m.val)
  | .bind d a => some (0x54004000 + d.val * 2097152 + a.val * 65536)
  | .ipf a l n => some (0x58000000 + a.val * 65536 + boolNat l * 2048 + n.val)
  | .ipin d a l n => some (0x58001000 + d.val * 2097152 + a.val * 65536 + boolNat l * 2048 + n.val)
  | .iunpin a l n => some (0x58002000 + a.val * 65536 + boolNat l * 2048 + n.val)
  | .dpf a n => some (0x58003000 + a.val * 65536 + n.val)
  | .cwb a n => some (0x58004000 + a.val * 65536 + n.val)
  | .cinv a w n => some (0x58005000 + a.val * 65536 + boolNat w * 512 + n.val)
  | .fadd d a b t u p r => some (0x60000000 + d.val * 2097152 + a.val * 65536 + b.val * 2048 + boolNat t * 1024 + boolNat u * 512 + p.val * 8 + r.val)
  | .fsub d a b t u p r => some (0x60000020 + d.val * 2097152 + a.val * 65536 + b.val * 2048 + boolNat t * 1024 + boolNat u * 512 + p.val * 8 + r.val)
  | .fmul d a b t u p r => some (0x60000040 + d.val * 2097152 + a.val * 65536 + b.val * 2048 + boolNat t * 1024 + boolNat u * 512 + p.val * 8 + r.val)
  | .fdiv d a b t u p r => some (0x60000060 + d.val * 2097152 + a.val * 65536 + b.val * 2048 + boolNat t * 1024 + boolNat u * 512 + p.val * 8 + r.val)
  | .fsqrt d a t p r => some (0x60000080 + d.val * 2097152 + a.val * 65536 + boolNat t * 1024 + p.val * 8 + r.val)
  | .fmin d a b t u p => some (0x600000A0 + d.val * 2097152 + a.val * 65536 + b.val * 2048 + boolNat t * 1024 + boolNat u * 512 + p.val * 8)
  | .fmax d a b t u p => some (0x600000C0 + d.val * 2097152 + a.val * 65536 + b.val * 2048 + boolNat t * 1024 + boolNat u * 512 + p.val * 8)
  | .fminm d a b t u p => some (0x600000E0 + d.val * 2097152 + a.val * 65536 + b.val * 2048 + boolNat t * 1024 + boolNat u * 512 + p.val * 8)
  | .fmaxm d a b t u p => some (0x60000100 + d.val * 2097152 + a.val * 65536 + b.val * 2048 + boolNat t * 1024 + boolNat u * 512 + p.val * 8)
  | .feq d a b t u p => some (0x60000120 + d.val * 2097152 + a.val * 65536 + b.val * 2048 + boolNat t * 1024 + boolNat u * 512 + p.val * 8)
  | .flt d a b t u p => some (0x60000140 + d.val * 2097152 + a.val * 65536 + b.val * 2048 + boolNat t * 1024 + boolNat u * 512 + p.val * 8)
  | .fle d a b t u p => some (0x60000160 + d.val * 2097152 + a.val * 65536 + b.val * 2048 + boolNat t * 1024 + boolNat u * 512 + p.val * 8)
  | .fclass d a t p => some (0x60000180 + d.val * 2097152 + a.val * 65536 + boolNat t * 1024 + p.val * 8)
  | .fsgnj d a b t u p => some (0x600001A0 + d.val * 2097152 + a.val * 65536 + b.val * 2048 + boolNat t * 1024 + boolNat u * 512 + p.val * 8)
  | .fsgnjn d a b t u p => some (0x600001C0 + d.val * 2097152 + a.val * 65536 + b.val * 2048 + boolNat t * 1024 + boolNat u * 512 + p.val * 8)
  | .fsgnjx d a b t u p => some (0x600001E0 + d.val * 2097152 + a.val * 65536 + b.val * 2048 + boolNat t * 1024 + boolNat u * 512 + p.val * 8)
  | .fma d a b c p r => some (0x64000000 + d.val * 2097152 + a.val * 65536 + b.val * 2048 + c.val * 64 + boolNat p * 16 + r.val * 2)
  | .fms d a b c p r => some (0x64000020 + d.val * 2097152 + a.val * 65536 + b.val * 2048 + c.val * 64 + boolNat p * 16 + r.val * 2)
  | .fnms d a b c p r => some (0x64000001 + d.val * 2097152 + a.val * 65536 + b.val * 2048 + c.val * 64 + boolNat p * 16 + r.val * 2)
  | .fnma d a b c p r => some (0x64000021 + d.val * 2097152 + a.val * 65536 + b.val * 2048 + c.val * 64 + boolNat p * 16 + r.val * 2)
  | .fcvt d a w t x y r => some (0x68000000 + d.val * 2097152 + a.val * 65536 + w.val * 2048 + boolNat t * 1024 + x.val * 64 + y.val * 8 + r.val)
  | .fexp2 d a t p => some (0x6C000000 + d.val * 2097152 + a.val * 65536 + boolNat t * 1024 + p.val * 8)
  | .flog2 d a t p => some (0x6C000020 + d.val * 2097152 + a.val * 65536 + boolNat t * 1024 + p.val * 8)
  | .fexp d a t p => some (0x6C000040 + d.val * 2097152 + a.val * 65536 + boolNat t * 1024 + p.val * 8)
  | .fln d a t p => some (0x6C000060 + d.val * 2097152 + a.val * 65536 + boolNat t * 1024 + p.val * 8)
  | .frcp d a t p => some (0x6C000080 + d.val * 2097152 + a.val * 65536 + boolNat t * 1024 + p.val * 8)
  | .frsq d a t p => some (0x6C0000A0 + d.val * 2097152 + a.val * 65536 + boolNat t * 1024 + p.val * 8)
  | .fsin d a t p => some (0x6C0000C0 + d.val * 2097152 + a.val * 65536 + boolNat t * 1024 + p.val * 8)
  | .fcos d a t p => some (0x6C0000E0 + d.val * 2097152 + a.val * 65536 + boolNat t * 1024 + p.val * 8)
  | .ftanh d a t p => some (0x6C000100 + d.val * 2097152 + a.val * 65536 + boolNat t * 1024 + p.val * 8)
  | .fsigm d a t p => some (0x6C000120 + d.val * 2097152 + a.val * 65536 + boolNat t * 1024 + p.val * 8)
  | .ferf d a t p => some (0x6C000140 + d.val * 2097152 + a.val * 65536 + boolNat t * 1024 + p.val * 8)
  | .xclr a t => some (0x6C000188 + a.val * 65536 + boolNat t * 1024)
  | .xacc a b t u p => some (0x6C0001A0 + a.val * 65536 + b.val * 2048 + boolNat t * 1024 + boolNat u * 512 + p.val * 8)
  | .xrnd d a t p r => some (0x6C0001C0 + d.val * 2097152 + a.val * 65536 + boolNat t * 1024 + p.val * 8 + r.val)
  | .vadd d a b y => some (0x80000000 + d.val * 2097152 + a.val * 65536 + b.val * 2048 + y.val)
  | .vsub d a b y => some (0x80000008 + d.val * 2097152 + a.val * 65536 + b.val * 2048 + y.val)
  | .vmul d a b y => some (0x80000010 + d.val * 2097152 + a.val * 65536 + b.val * 2048 + y.val)
  | .vfma d a b y => some (0x80000018 + d.val * 2097152 + a.val * 65536 + b.val * 2048 + y.val)
  | .vmin d a b y => some (0x80000020 + d.val * 2097152 + a.val * 65536 + b.val * 2048 + y.val)
  | .vmax d a b y => some (0x80000028 + d.val * 2097152 + a.val * 65536 + b.val * 2048 + y.val)
  | .vand d a b y => some (0x80000030 + d.val * 2097152 + a.val * 65536 + b.val * 2048 + y.val)
  | .vor d a b y => some (0x80000038 + d.val * 2097152 + a.val * 65536 + b.val * 2048 + y.val)
  | .vxor d a b y => some (0x80000040 + d.val * 2097152 + a.val * 65536 + b.val * 2048 + y.val)
  | .vshl d a b y => some (0x80000048 + d.val * 2097152 + a.val * 65536 + b.val * 2048 + y.val)
  | .vshr d a b y => some (0x80000050 + d.val * 2097152 + a.val * 65536 + b.val * 2048 + y.val)
  | .vcmp d a b y => some (0x80000058 + d.val * 2097152 + a.val * 65536 + b.val * 2048 + y.val)
  | .vsel d a b y => some (0x80000060 + d.val * 2097152 + a.val * 65536 + b.val * 2048 + y.val)
  | .vperm d a b y => some (0x80000068 + d.val * 2097152 + a.val * 65536 + b.val * 2048 + y.val)
  | .vmov d a y => some (0x80000070 + d.val * 2097152 + a.val * 65536 + y.val)
  | .vbcst d a t y => some (0x80000078 + d.val * 2097152 + a.val * 65536 + boolNat t * 1024 + y.val)
  | .vredadd d a y => some (0x80000080 + d.val * 2097152 + a.val * 65536 + y.val)
  | .vredmax d a y => some (0x80000088 + d.val * 2097152 + a.val * 65536 + y.val)
  | .vredmin d a y => some (0x80000090 + d.val * 2097152 + a.val * 65536 + y.val)
  | .vcvt d a x y => some (0x80000098 + d.val * 2097152 + a.val * 65536 + x.val * 2048 + y.val)
  | .vqnt d a b u => some (0x800000A0 + d.val * 2097152 + a.val * 65536 + b.val * 2048 + boolNat u * 512)
  | .vmaxx d a => some (0x800000A8 + d.val * 2097152 + a.val * 65536)
  | .vexp d a y => some (0x800000B0 + d.val * 2097152 + a.val * 65536 + y.val)
  | .vln d a y => some (0x800000B8 + d.val * 2097152 + a.val * 65536 + y.val)
  | .vrcp d a y => some (0x800000C0 + d.val * 2097152 + a.val * 65536 + y.val)
  | .vrsq d a y => some (0x800000C8 + d.val * 2097152 + a.val * 65536 + y.val)
  | .vtanh d a y => some (0x800000D0 + d.val * 2097152 + a.val * 65536 + y.val)
  | .vclaim d a t => some (0x84000000 + d.val * 2097152 + a.val * 65536 + boolNat t * 1024)
  | .vreneg d a t => some (0x84000001 + d.val * 2097152 + a.val * 65536 + boolNat t * 1024)
  | .vrel => some (0x84000002)
  | .vld d a t => some (0x84000008 + d.val * 2097152 + a.val * 65536 + boolNat t * 1024)
  | .vlds d a b t u => some (0x84000009 + d.val * 2097152 + a.val * 65536 + b.val * 2048 + boolNat t * 1024 + boolNat u * 512)
  | .vgth d a b t => some (0x8400000A + d.val * 2097152 + a.val * 65536 + b.val * 2048 + boolNat t * 1024)
  | .vst d a t => some (0x8400000C + d.val * 2097152 + a.val * 65536 + boolNat t * 1024)
  | .vsts d a b t u => some (0x8400000D + d.val * 2097152 + a.val * 65536 + b.val * 2048 + boolNat t * 1024 + boolNat u * 512)
  | .vsct d a b t => some (0x8400000E + d.val * 2097152 + a.val * 65536 + b.val * 2048 + boolNat t * 1024)
  | .vchain a t => some (0x84000010 + a.val * 65536 + boolNat t * 1024)
  | .mcfg w a => some (0x88000000 + w.val * 1024 + a.val * 32)
  | .mldb k w a b => some (0x88200000 + k.val * 262144 + w.val * 1024 + a.val * 32 + b.val)
  | .mlda k w a b => some (0x88400000 + k.val * 262144 + w.val * 1024 + a.val * 32 + b.val)
  | .mm16 k w a b => some (0x88600000 + k.val * 262144 + w.val * 1024 + a.val * 32 + b.val)
  | .mtile k w a => some (0x88800000 + k.val * 262144 + w.val * 1024 + a.val * 32)
  | .mzero k w a b => some (0x88A00000 + k.val * 262144 + w.val * 1024 + a.val * 32 + b.val)
  | .mstc k w a b => some (0x88C00000 + k.val * 262144 + w.val * 1024 + a.val * 32 + b.val)
  | .mprog w a b => some (0x88E00000 + w.val * 1024 + a.val * 32 + b.val)
  | .mjoin k w a => some (0x89000000 + k.val * 262144 + w.val * 1024 + a.val * 32)
  | .mgv k w a b => some (0x8C000000 + k.val * 262144 + w.val * 1024 + a.val * 32 + b.val)
  | .mgvb k w a b => some (0x8C200000 + k.val * 262144 + w.val * 1024 + a.val * 32 + b.val)
  | .mcbt k w a b => some (0x8C400000 + k.val * 262144 + w.val * 1024 + a.val * 32 + b.val)
  | .send k w a b => some (0x90000000 + k.val * 262144 + w.val * 1024 + a.val * 32 + b.val)
  | .sendx k w a b => some (0x90200000 + k.val * 262144 + w.val * 1024 + a.val * 32 + b.val)
  | .dget k w a b => some (0x90400000 + k.val * 262144 + w.val * 1024 + a.val * 32 + b.val)
  | .dgetl k w a b => some (0x90600000 + k.val * 262144 + w.val * 1024 + a.val * 32 + b.val)
  | .darith k w a b => some (0x90800000 + k.val * 262144 + w.val * 1024 + a.val * 32 + b.val)
  | .cfollow k w a b => some (0x90A00000 + k.val * 262144 + w.val * 1024 + a.val * 32 + b.val)
  | .cquery k w a b => some (0x90C00000 + k.val * 262144 + w.val * 1024 + a.val * 32 + b.val)
  | .ccancel k w a => some (0x90E00000 + k.val * 262144 + w.val * 1024 + a.val * 32)
  | .xreq k w a b => some (0x94000000 + k.val * 262144 + w.val * 1024 + a.val * 32 + b.val)
  | .xpoll k w a b => some (0x94200000 + k.val * 262144 + w.val * 1024 + a.val * 32 + b.val)
  | .xres k w a b => some (0x94400000 + k.val * 262144 + w.val * 1024 + a.val * 32 + b.val)
  | .engw e w a => some (0x98000000 + e.val * 262144 + w.val * 1024 + a.val * 32)
  | .engr e w b => some (0x99000000 + e.val * 262144 + w.val * 1024 + b.val)
  | .wait w => some (0x9C000000 + w.val * 1024)
  | .tokq k w a b => some (0x9C200000 + k.val * 262144 + w.val * 1024 + a.val * 32 + b.val)
  | .svc n => some (0xC0000000 + n.val)
  | .brk n => some (0xC0001000 + n.val)
  | .eret => some (0xC0002000)
  | .csrr d c => some (0xC0003000 + d.val * 2097152 + c.val)
  | .csrw d a c => some (0xC0004000 + d.val * 2097152 + a.val * 65536 + c.val)
  | .yield n => some (0xC0005000 + n.val)
  | .empty d n => some (0xC0006000 + d.val * 2097152 + n.val)
  | .halt => some (0xC0007000)
  | .spawn d a => some (0xC4000000 + d.val * 2097152 + a.val * 65536)
  | .tdone n => some (0xC4001000 + n.val)
  | .cdopen d a => some (0xC4002000 + d.val * 2097152 + a.val * 65536)
  | .cdpres d a n => some (0xC4003000 + d.val * 2097152 + a.val * 65536 + n.val)
  | .cdclose d a => some (0xC4004000 + d.val * 2097152 + a.val * 65536)
  | .pair d => some (0xC4005000 + d.val * 2097152)
  | .unpair d => some (0xC4006000 + d.val * 2097152)
  | .rcommit d a n => some (0xC4007000 + d.val * 2097152 + a.val * 65536 + n.val)
  | .aswap d a k n => some (0xC4008000 + d.val * 2097152 + a.val * 65536 + boolNat k * 256 + n.val)
  | .illegalInstruction .. => none
  | .rotationBoundary .. => none
  | .balancingInterval .. => none
  | .dispatchDecision .. => none
  | .preemptionDecision .. => none
  | .faultDecision .. => none
  | .stage .. => none
  | .policySwitch .. => none
  | .gangSliceRequest .. => none
  | .gangSliceStart .. => none
  | .gangLateMemberStart .. => none
  | .gangSliceCancel .. => none
  | .gangSliceEnd .. => none
  | .gangMembersSaved .. => none
  | .doorbell .. => none
  | .launchAdmission .. => none
  | .heldRecordRecheck .. => none
  | .partitionConfigWrite .. => none
  | .enadd .. => none
  | .stagingFetchComplete .. => none
  | .stagingFetchRetry .. => none
  | .taskItemDelivery .. => none
  | .go .. => none
  | .rangeCommitDrainReport .. => none
  | .rangeCommitSwitch => none
  | .dieMapSwitch .. => none
  | .regWindowWrite .. => none
  | .tblWindowWrite .. => none
  | .homeAccess .. => none
  | .replyArrival .. => none
  | .asyncTrapEntry .. => none
  | .journalAck .. => none
  | .postedStoreRefusal .. => none
  | .l1Fill .. => none
  | .writebackReply .. => none
  | .writebackRetry .. => none
  | .mergeWindowExpiry .. => none
  | .icacheFill .. => none
  | .xfmCrc .. => none
  | .xfmFrc .. => none
  | .xfmFrd .. => none
  | .xfmEbc .. => none
  | .xfmEbd .. => none
  | .xfmCtb .. => none
  | .mldaExecute .. => none
  | .mldbExecute .. => none
  | .mm16Execute .. => none
  | .mzeroExecute .. => none
  | .mstcExecute .. => none
  | .mcbtExecute .. => none
  | .mjoinComplete .. => none
  | .cfollowMtileStart .. => none
  | .groupWatchdogFire .. => none
  | .gvQueueGrant .. => none
  | .engineBoxIssue .. => none
  | .boxWrite .. => none
  | .boxAck .. => none
  | .directedReadOwner .. => none
  | .directedReadDelivery .. => none
  | .darithPacketApply .. => none
  | .orderedPacketArrival .. => none
  | .darithOpenPacket .. => none
  | .orderedPacketResend .. => none
  | .orderedHeldAck .. => none
  | .parityUpdate .. => none
  | .routerHop .. => none
  | .laneLoss .. => none
  | .retrain .. => none
  | .linkTrainingDone .. => none
  | .flitCrcResend .. => none
  | .flitResendLimit .. => none
  | .fabricTimeout .. => none
  | .rclk .. => none
  | .rclkApply .. => none
  | .rclkPauseEnd .. => none
  | .xdieLoss .. => none
  | .fenceListWrite .. => none
  | .linkWeightWrite .. => none
  | .preemptionRequest .. => none
  | .preemptionSave .. => none
  | .swapOut .. => none
  | .swapIn .. => none
  | .pairItemCompare .. => none
  | .pairItemTimeout .. => none
  | .heartbeat .. => none
  | .diagnosisOpen .. => none
  | .pairAgreement .. => none
  | .neighbourProbe .. => none
  | .confirmationReply .. => none
  | .confirmationTimeout .. => none
  | .diagnosisRetry .. => none
  | .packageLossDiagnosis .. => none
  | .domainRestoreComplete .. => none
  | .stripeGroupRebuild => none
  | .watchdogFire .. => none
  | .release .. => none
  | .requeue .. => none
  | .kill .. => none
  | .saveaddr .. => none
  | .spareadd .. => none
  | .sparedel .. => none
  | .schedCmdReserved .. => none
  | .taskRetirement .. => none
  | .powerControlTick .. => none
  | .powerGood .. => none
  | .lcsChange .. => none
  | .controlRegisterWrite .. => none
  | .pairAgreementTimeout .. => none
  | .dieLoss .. => none
  | .softError .. => none
  | .packagePowerRemoved => none
  | .mtileSequencerStep .. => none
  | .gvRowComplete .. => none
  | .vchainGroupComplete .. => none

/-- The instruction read from a table row's bits (bit 0 the least significant bit of the word): every row has
one 32-bit word, so any other length is refused. -/
def decodeTableWord (nbits w : Nat) : Option Instr := if nbits = 32 then decode w else none

/-- The four bytes of a word as memory holds them, little-endian (05_encoding R100). -/
def wordBytes (w : Nat) : List Byte :=
  [BitVec.ofNat 8 w, BitVec.ofNat 8 (w / 256), BitVec.ofNat 8 (w / 65536), BitVec.ofNat 8 (w / 16777216)]

/-- The word whose bytes, lowest address first, are given. -/
def bytesWord (bs : List Byte) : Nat := bs.foldr (fun b acc => b.toNat + 256 * acc) 0

end Sys2Proof
end

