-- ==== Sys2Proof/Machine/State.lean ====
section
/-!
DEFINITION. The state of one ZN-960 package as plain data: the thread slots, the cores with their caches, journals
and matrix contexts, the clusters, the dies with their range tables and schedulers, the partitions, jobs, tasks
and containment domains, the commands and messages on their way, the fabric, and the X-die blocks. The agenda
says which step comes next; with an empty agenda the slot `cur` has its turn.
-/
namespace Sys2Proof
namespace Machine

/-! ## Finite maps and memory -/

/-- A finite map: entries (key, value) with keys rising. -/
abbrev FMap (V : Type) := List (Nat × V)

/-- The value at a key, `d` where nothing is listed. -/
def FMap.get {V : Type} (d : V) : FMap V → Nat → V
  | [], _ => d
  | (k, v) :: m, a => if k = a then v else FMap.get d m a

/-- The map with one value replaced. -/
def FMap.set {V : Type} (a : Nat) (v : V) : FMap V → FMap V
  | [] => [(a, v)]
  | (k, w) :: m => if k < a then (k, w) :: FMap.set a v m else if k = a then (a, v) :: m else (a, v) :: (k, w) :: m

/-- The entry at a key, if listed. -/
def FMap.find {V : Type} : FMap V → Nat → Option V
  | [], _ => none
  | (k, v) :: m, a => if k = a then some v else FMap.find m a

/-- The map without one key. -/
def FMap.drop {V : Type} (a : Nat) (m : FMap V) : FMap V := m.filter (fun e => e.1 != a)

/-- Memory: listed bytes with strictly rising addresses and no zero byte. -/
abbrev Memory := List Host.Cell

/-- What a byte that nothing has written reads as: bring-up wipes every memory to zero (17_retire R412). -/
def Memory.unlisted : Byte := 0

/-- The canonical form of memory. -/
def Memory.wf : Memory → Bool
  | [] => true
  | (a, b) :: rest =>
    b != Memory.unlisted && Memory.wf rest &&
      (match rest with
      | [] => true
      | (a', _) :: _ => decide (a < a'))

/-! ## Slots -/

/-- The three states of a general register (06_scalar R138, Table 6-1), and the saved state 11 of Table 15-3:
pending on a wait-mode `LDFE` that is to be sent again. -/
inductive RegState where
  | full | empty | pending | resend
deriving DecidableEq, Repr

/-- A general register with its state (05_encoding R129). -/
structure GReg where
  val : Word := 0
  st : RegState := .full
deriving DecidableEq, Repr

/-- Kinds of a token's outcome (12_copy R297). -/
inductive OutKind where
  | none | neg | fault
deriving DecidableEq, Repr

/-- A scoreboard token: count and record (12_copy R297, Table 12-3). -/
structure Token where
  count : Nat := 0
  code : Nat := 0
  kind : OutKind := .none
  dup : Bool := false
  more : Bool := false
  box : Nat := 0
  addr : Nat := 0
deriving DecidableEq, Repr

/-- The CSRs that a slot holds as registers (06_scalar Table 6-8). fcsr holds LIBVER 1 in bits 47:40. -/
structure Csrs where
  fcsr : Word := 0x0000010000000000
  tstat : Word := 0
  tvec : Word := 0
  tcause : Word := 0
  tpc : Word := 0
  tval : Word := 0
  tjrn : Word := 0
  tscratch : Word := 0
deriving DecidableEq, Repr

/-- The bit buffer bb (08_memory_ops R212). -/
structure BitBuf where
  win : BitVec 128 := 0
  cnt : Nat := 0
  ptr : BitVec 48 := 0
  lim : BitVec 48 := 0
deriving DecidableEq, Repr

/-- A vector claim: lanes granted and the lane groups that hold them (09_vector R215). -/
structure Claim where
  lanes : Nat
  groups : List Nat
deriving DecidableEq, Repr

/-- A plain load or store that waits for its line (08_memory_ops R187, R193); with `again` set it is issued again once
the line is there. -/
structure Access where
  store : Bool
  va : Word
  spa : Nat
  width : Nat
  reg : Fin 32
  signed : Bool
  data : Word
  ecg : Nat := 0
  again : Bool := false
deriving DecidableEq, Repr

/-- A running `MGV` or `MGVB` (11_grouped R284, R287): its operands, token, queues, and the next row with the offset of
its header. -/
structure GvRun where
  ra : Word
  rb : Word
  token : Nat
  queues : Nat
  cols : Nat
  row : Nat
  off : Nat
  flags : Nat := 0
deriving DecidableEq, Repr

/-- Why a slot's instruction is held (06_scalar R141). -/
inductive Hold where
  | fill (line : Nat) (a : Access)  -- a line fill of a plain load or store
  | msg (id : Nat)             -- a reply to a message
  | writeback                  -- acknowledgements of write-backs; the instruction then goes on
  | halt                       -- HALT until the wake flag
  | turns (n : Nat)            -- turns still lost before the next issue
  | mtile                      -- the macro-operation sequencer runs
  | gv (granted : Bool) (run : GvRun)  -- gather-accumulate queues
  | vchain (desc : Nat)        -- a chained pass, with its descriptor
  | commit                     -- RCOMMIT until the switch
  | pairItem                   -- an item of a checked pair until its partner matches
deriving DecidableEq, Repr

/-- What a slot is bound to: task, slot index j, gang member m, and whether it belongs to the secondary copy of
a checked pair (01_work R9, 15_interrupts R377). -/
structure Binding where
  task : Nat
  j : Nat := 0
  m : Nat := 0
  secondary : Bool := false
deriving DecidableEq, Repr

/-- A pending asynchronous trap other than a refused journal entry (15_interrupts R366). -/
structure PendingTrap where
  cause : Nat
  tval : Word
  stamp : Nat
  reg : Nat := 0
  mode : Nat := 0
deriving DecidableEq, Repr

/-- A thread slot (05_encoding R129, 06_scalar R161, 09_vector R218, 11_grouped R281, 12_copy R301). `blocked` says that an
access found the speculative structures full: the slot waits until its task is head (01_work R22). -/
structure Slot where
  owner : Option (Nat × Nat) := none
  kept : Bool := false
  bind : Option Binding := none
  pc : Word := 0
  g : Vector GReg 32 := Vector.replicate 32 {}
  csr : Csrs := {}
  bb : BitBuf := {}
  pix : Word := 0
  pixAt : Option Word := none
  eng : FMap Word := []
  tok : Vector Token 8 := Vector.replicate 8 {}
  claim : Option Claim := none
  vreg : FMap (BitVec 32) := []
  hold : Option Hold := none
  wake : Bool := false
  yielding : Nat := 0
  ended : Bool := false
  stopped : Bool := false
  issued : Nat := 0
  lost : Nat := 0
  idle : Nat := 0
  reissue : Bool := false
  stamp : Nat := 0
  pend : List PendingTrap := []
  blocked : Bool := false
deriving DecidableEq, Repr

/-! ## Cores -/

/-- An L1 data-cache line: SPA[59:5], the 32 bytes, a dirty bit for each, and whether a write-back of it was
refused and is tried again (08_memory_ops R193, R438). -/
structure L1Line where
  line : Nat
  bytes : List Byte
  dirty : List Bool
  refused : Bool := false
deriving DecidableEq, Repr

/-- An instruction-cache line: ASID, VA[47:5], its words, the partition that pinned it (05_encoding R125, R127). -/
structure ILine where
  asid : Nat
  line : Nat
  words : List Nat
  pin : Option Nat := none
  refetch : List Nat := []
deriving DecidableEq, Repr

/-- State of a posted-store journal entry (08_memory_ops R207); an acknowledged entry is free. -/
inductive JState where
  | sent | refused (code : Nat)
deriving DecidableEq, Repr

/-- A posted-store journal entry (08_memory_ops R207). -/
structure JEntry where
  slot : Nat
  va : Word
  width : Nat
  data : Word
  fill : Bool
  st : JState := .sent
  stamp : Nat := 0
  who : Binding := { task := 0 }
deriving DecidableEq, Repr

/-- A command of a matrix queue (10_matrix R256): function code, token, operands and the engine registers it read; a join
entry of `QFENCE`, or a tile attached to a copy command with what became of it (12_copy R325); operand values read so
far. -/
structure MatCmd where
  id : Nat := 0
  fn : Nat
  who : Binding
  token : Nat
  ra : Word
  rb : Word
  cfg : Word := 0
  regs : FMap Word := []
  follow : Option Nat := none
  copyDone : Bool := false
  skipped : Bool := false
  join : Option Nat := none
  got : List Nat := []
deriving DecidableEq, Repr

/-- Progress of the macro-operation sequencer (10_matrix R265, R268): the next step, the tiles of its loads that have
been read, values of the tile being read, and the cycles waited on a chunk. `slot` is none for an attached tile. -/
structure TileRun where
  who : Binding
  slot : Option Nat
  token : Nat
  mode : Nat
  cfg : Word
  regs : FMap Word
  step : Nat := 0
  part : Nat := 0
  got : List Nat := []
  vals : List (List Nat) := []
  ready : Bool := false
  waits : Bool := false
  flags : Nat := 0
  cmd : Nat := 0
deriving DecidableEq, Repr

/-- A core's matrix context (10_matrix R250, R252). `paused` keeps what the loads of the step at pix have read through the
codebook path of an `MTILE` that stopped inside them (11_grouped R294). `stage` holds A stage values, element (tile, i, k) at key
256 tile + 16 i + k, as FP32 bits (every operand format widens to FP32 exactly, R167, R249). -/
structure MatCtx where
  owner : Option Binding := none
  e : FMap Word := []
  stage : FMap (BitVec 32) := []
  queue : List MatCmd := []
  halted : Bool := false
  run : Option TileRun := none
  paused : Option TileRun := none
  lastPart : Option Nat := none
deriving DecidableEq, Repr

/-- The context owned by no slot: what it holds stays until it is taken (10_matrix R249, R255). -/
def MatCtx.free (m : MatCtx) : MatCtx := { m with owner := none, paused := none }

/-- An entry of a copy queue: a command by its number, or a join entry (12_copy R295, 13_consistency R339). -/
inductive QEntry where
  | cmd (id : Nat) | join (id : Nat)
deriving DecidableEq, Repr

/-- A line of the speculative write buffer (01_work R22), with the slot that wrote it last, its binding, and the virtual
address of the line as that slot named it. -/
structure SpecLine where
  task : Nat
  line : Nat
  bytes : List Byte
  mask : List Bool
  slot : Nat := 0
  who : Binding := { task := 0 }
  va : Nat := 0
  asid : Nat := 0
deriving DecidableEq, Repr

/-- An item that one copy of a checked pair has produced (15_interrupts R378): its slot index, its instruction and
operands, the slot as it stood, the system time, and whether both copies have been found to agree. -/
structure PairItem where
  j : Nat
  secondary : Bool
  word : Nat
  operands : List Word
  before : Slot
  since : Nat
  matched : Bool := false
deriving DecidableEq, Repr

/-- A core (00_scope R3). -/
structure Core where
  l1 : List L1Line := []
  icache : List ILine := []
  journal : FMap JEntry := []
  work : List (Nat × Nat) := []
  tbl : FMap (BitVec 16) := []
  tblFull : List Nat := []
  tags : FMap (Nat × Nat) := []
  mat : MatCtx := {}
  queues : FMap (List QEntry) := []
  lastCopy : FMap (Nat × Bool) := []
  lastPart : Option Nat := none
  lastJob : Option Nat := none
  spec : List SpecLine := []
  readTags : List (Nat × Nat) := []
  items : List PairItem := []
  pairWith : Option Nat := none
deriving DecidableEq, Repr

/-! ## Clusters -/

/-- A contribution to an exchange of `VMAXX`: the core, the binding and register that receive the result, the FP32
magnitude. -/
structure XJoin where
  core : Nat
  who : Binding
  reg : Fin 32
  bits : Nat
deriving DecidableEq, Repr

/-- An open exchange of `VMAXX` (09_vector R227), held by the first cluster of its group: the tag, the group's width in
clusters, the core mask, its number in the sequence of its key, and what has been contributed. -/
structure Exchange where
  tag : Nat
  width : Nat
  cores : Nat
  nth : Nat
  joined : List XJoin
deriving DecidableEq, Repr

/-- States of a transform ticket (09_vector R237). -/
inductive TicketState where
  | queued | running | done (word : Word) | faulted (word : Word)
deriving DecidableEq, Repr

/-- A held ticket of the transform port (09_vector R236). -/
structure Ticket where
  gen : Nat
  who : Binding
  token : Nat
  st : TicketState := .queued
  waiters : List (Binding × Fin 32) := []
deriving DecidableEq, Repr

/-- A queued or running request: its ticket entry, descriptor and ASID, the next block, and the bytes of the escape region in
use, or the checksum so far (09_vector R236, R238, R239). -/
structure XfmReq where
  entry : Nat
  desc : Nat
  asid : Nat
  core : Nat
  id : Nat := 0
  after : List Nat := []
  next : Nat := 0
  esc : Nat := 0
deriving DecidableEq, Repr

/-- An entry of a mesh port's merge table: the 256-byte block, and the fills that have joined with their lines
(08_memory_ops R195). -/
structure Merge where
  block : Nat
  lines : List (Nat × Event)
deriving DecidableEq, Repr

/-- The shared engines of a cluster (00_scope R3). -/
structure Cluster where
  exchanges : List Exchange := []
  xcount : FMap Nat := []
  xfm : List XfmReq := []
  tickets : FMap Ticket := []
  gens : FMap Nat := []
  gvWait : List (Nat × Nat) := []
  merges : List Merge := []
deriving DecidableEq, Repr

/-! ## Dies -/

/-- A range entry (04_placement Table 4-6). -/
structure Range where
  sync : Nat := 0
  ecg : Nat := 0
  planes : Nat := 0
  keep : Bool := false
  tblfmt : Bool := false
  blk : Nat := 0
  planar : Bool := false
  efmt : Nat := 0
  peer : Nat := 0
  key : Nat := 0
  enc : Bool := false
  dacc : Bool := false
  dsrc : Bool := false
  x : Bool := false
  w : Bool := false
  r : Bool := false
  valid : Bool := false
  peeren : Bool := false
  phys : Nat := 0
  limit : Nat := 0
  base : Nat := 0
deriving DecidableEq, Repr

/-- An ASID control word (04_placement Table 4-9). -/
structure AsidCtl where
  ver : Nat := 0
  part : Nat := 0
  owned : Bool := false
  taskrc : Bool := false
deriving DecidableEq, Repr

/-- What a partition holds on one die (03_accord R51, R55, R56, R65, R66). -/
structure PartDie where
  held : FMap Word := []
  weights : FMap Nat := []
  qptr : Nat := 0
  version : Nat := 0
  prog : List Nat := []
  shadow : Option (Nat × List Nat × Bool) := none
  quiet : Bool := false
deriving DecidableEq, Repr

/-- Kinds of decision (03_accord R50). -/
inductive DecKind where
  | dispatch | preempt | fault
deriving DecidableEq, Repr

/-- A decision's outcome: the values of its registers (03_accord Table 3-6). -/
structure Choice where
  dqueue : Nat := 16
  dpick : Nat := 0
  pvictim : Nat := 16
  faction : Nat := 0
deriving DecidableEq, Repr

/-- What a decision in flight has come to on its snapshot (03_accord R49, R57): the system time at which it is applied, its
choice with the task and the cores that it names, the staged writes, and, where the fallback decides, the overrun that led
to it. -/
structure DecRun where
  due : Nat
  choice : Choice := {}
  task : Option Nat := none
  cores : List Nat := []
  held : FMap Word := []
  weights : FMap Nat := []
  fallback : Bool := false
  overrun : Option (Nat × Nat) := none
deriving DecidableEq, Repr

/-- A posed decision (03_accord R49, R50). `core` is the deciding core of a dispatch decision, `candq` the waiting
or the task's queue, `fcode` the fault class, `members` the dies of the task's members in order when a fault decision was
posed (R48). -/
structure Decision where
  kind : DecKind
  part : Nat
  core : Nat := 0
  candq : Nat := 0
  task : Nat := 0
  fcode : Nat := 0
  members : List Nat := []
  run : Option DecRun := none
deriving DecidableEq, Repr

/-- An order context of an ORDERED bank: the next key, or closed (12_copy R318). -/
structure OrderCtx where
  key : Option (Nat × Nat × Nat) := none
deriving DecidableEq, Repr

/-- An ORDERED bank: 16 contexts and the buffered packets by box number (12_copy R318). -/
structure Bank where
  ctx : FMap OrderCtx := []
  buf : List Nat := []
deriving DecidableEq, Repr

/-- An erasure-coding group entry (12_copy Table 12-18). -/
structure EcgEntry where
  mbase : List Nat := []
  size : Nat := 0
  valid : Bool := false
  p : Nat := 0
  k : Nat := 0
deriving DecidableEq, Repr

/-- A logical C-die or H-die. -/
structure Die where
  ranges : FMap Range := []
  asids : FMap AsidCtl := []
  balint : Word := 4096
  parts : FMap PartDie := []
  decisions : List Decision := []
  banks : FMap Bank := []
  ecg : FMap EcgEntry := []
  lost : Bool := false
  heldReqs : List Nat := []
  hitJobs : List Nat := []
  mhz : Nat := 940
  hot : Bool := false
  missed : Nat := 0
  evidence : Option Nat := none
  corrected : FMap Nat := []
deriving DecidableEq, Repr

/-- A die map entry (04_placement Table 4-2). -/
structure MapEntry where
  valid : Bool := false
  fenced : Bool := false
  remote : Bool := false
  pkg : Nat := 0
  phys : Nat := 0
deriving DecidableEq, Repr

/-- A redirect entry (16_recovery Table 16-7). -/
structure Redirect where
  valid : Bool := false
  spkg : Nat := 0
  sdie : Nat := 0
  tpkg : Nat := 0
  tphys : Nat := 0
deriving DecidableEq, Repr

/-! ## Tasks, jobs, domains, partitions -/

/-- A declaration block (01_work Table 1-1). -/
structure Decl where
  tcount : Nat := 0
  trigger : Nat := 0
  energy : Nat := 0
  arg : Word := 0
  tstamp : Nat := 0
  domain : Nat := 0
  kind : Nat := 0
  queue : Nat := 0
  level : Nat := 0
  gang : Nat := 1
  slots : Nat := 1
  nout : Nat := 0
  nin : Nat := 0
  tiles : Nat := 0
  codelen : Nat := 1
  codebase : Nat := 0
  entry : Nat := 0
deriving DecidableEq, Repr

/-- A tile entry (01_work Table 1-2). -/
structure Tile where
  fetch : Bool := false
  place : Nat := 0
  offset : Nat := 0
  length : Nat := 0
  addr : Nat := 0
deriving DecidableEq, Repr

/-- Task states (01_work Table 1-5). -/
inductive TaskState where
  | declared | queued | ready | placed | speculative | running | preempted | swapped | done | committed
  | rolledBack | retired
deriving DecidableEq, Repr

/-- Staging of one declared input (02_launch R42, R46, R439): its place in the partition's staging region, its bytes as they
were staged, whether it is resident, and the item that is arriving with the boxes already written. -/
structure Staged where
  bytes : List Byte := []
  resident : Bool := false
  item : Option (Nat × List Nat) := none
  spa : Option Nat := none
deriving DecidableEq, Repr

/-- What a message asks its home to do (08_memory_ops R187, R198, R206, R210; 07_numbers R181; 13_consistency R336). -/
inductive MsgKind where
  | read | write
  | loadFe (mode : Nat) | storeFe (mode : Nat) | feGet | feSet
  | amo (f : Nat) (cmp : Word) | amoFadd (fp32 : Bool)
  | xclr | xacc (fmt : Nat) | xrnd (fmt rm : Nat)
  | acq (exclusive wide : Bool) | relFill | relMark
  | readCodes (e : Range) (first count : Nat)  -- the raw codes of elements of a decoded range, eight bits each
deriving DecidableEq, Repr

/-- Where a message stands. -/
inductive MsgState where
  | sent | waiting | replied (value : Word) (flags : Nat) | refused (code : Nat)
deriving DecidableEq, Repr

/-- A message between a slot and a home. `spa` is the whole system physical address; `journal` the posted entry;
`marking` a wait-mode `LDFE` whose slot runs on. -/
structure Msg where
  id : Nat
  slot : Nat
  core : Nat
  asid : Nat
  kind : MsgKind
  va : Word
  spa : Nat
  width : Nat
  data : Word := 0
  reg : Fin 32 := 0
  signed : Bool := false
  journal : Option Nat := none
  marking : Bool := false
  ecg : Nat := 0
  who : Binding
  st : MsgState := .sent
deriving DecidableEq, Repr

/-- Saved state of one slot of a PREEMPTED or SWAPPED task (15_interrupts R372); `spa` is its place in the staging region while
the task is SWAPPED. -/
structure SaveArea where
  j : Nat
  m : Nat
  core : Nat
  slot : Slot
  refusedJ : FMap JEntry := []
  copies : List Nat := []
  producers : List Msg := []
  input : FMap Word := []
  lanes : Nat := 0
  spa : Option Nat := none
  written : List Byte := []
  pinned : Bool := false
deriving DecidableEq, Repr

/-- Why a pre-emption of a task settles, and what follows the save (15_interrupts R365, R367). -/
inductive SaveEnd where
  | plain | park | parkRolledBack
deriving DecidableEq, Repr

/-- A task (01_work R11 to R25). `point` is the core (global number) that fixes its instance, `levels`
the domain codes of its levels, `diemask` the dies it may use (02_launch R34), `cores` where its members
are placed or bound, `chain` its domain chain from the innermost outwards, `wrote` the lines that an ordered task has
written beyond its buffered ones (R22, R24). -/
structure Task where
  id : Nat
  decl : Decl
  tilesIn : List Tile := []
  tilesOut : List Tile := []
  part : Nat := 0
  asid : Nat := 0
  job : Nat := 0
  point : Nat := 0
  levels : List Nat := []
  diemask : Nat := 0
  st : TaskState := .declared
  parked : Bool := false
  domain : Nat := 0
  chain : List Nat := []
  launch : Option (Nat × Nat) := none
  parent : Option Nat := none
  seq : Nat := 0
  staging : FMap Staged := []
  image : List (Nat × Nat × Word) := []
  cores : FMap Nat := []
  readyAt : Nat := 0
  boundAt : Nat := 0
  fretry : Nat := 0
  attempts : Nat := 0
  status : Nat := 0
  meter : Nat := 0
  binds : List (Nat × Nat) := []
  saves : List SaveArea := []
  saving : Option SaveEnd := none
  paired : Bool := false
  lastFault : Nat := 0
  freeFor : Option Nat := none
  readyCycle : Nat := 0
  endCode : Nat := 0
  discarded : Bool := false
  savedAt : Nat := 0
  specChild : Bool := false
  wrote : List Nat := []
deriving DecidableEq, Repr

/-- A preserved COPY entry or a LOCK (16_recovery R386): recorded SPAs are contiguous, so base and bytes stand
for them; `full` are the full words of the copied stretch. -/
structure Preserve where
  lock : Bool
  spa : Nat
  len : Nat
  group : Nat := 0
  bytes : List (Nat × Byte) := []
  full : List Nat := []
deriving DecidableEq, Repr

/-- A fault whose rollback set holds a domain, until the next rotation boundary (16_recovery R388): its class, the
damaged element, the ac cycle at which it was found, and the dies on which the opener and its members then stood
(03_accord R48). -/
structure DomainFault where
  fcode : Nat
  element : Nat
  cycle : Nat
  die : Nat := 0
  members : List Nat := []
deriving DecidableEq, Repr

/-- A containment domain (01_work R18, 16_recovery R381 to R390). The rind has number 0. -/
structure Domain where
  id : Nat
  job : Nat
  level : Nat := 0
  code : Nat := 7
  opener : Option Nat := none
  parent : Option Nat := none
  point : Nat := 0
  reentry : Nat := 0
  wdog : Nat := 0
  rollbacks : Nat := 0
  preserves : List Preserve := []
  restoring : Bool := false
  fcode : Nat := 0
  faulted : Option DomainFault := none
deriving DecidableEq, Repr

/-- A job open on this package (02_launch R39, 01_work R16, 16_recovery R402, R403). -/
structure Job where
  num : Nat
  asid : Nat
  part : Nat
  last : Bool := false
  spares : List Nat := []
  parkedFor : Option Nat := none
  wants : List Nat := []
  lastClosed : Option (Nat × Nat) := none
deriving DecidableEq, Repr

/-- The fields of a partition that take effect from the next record parsed (02_launch R34). -/
structure PartUse where
  stagebase : Nat := 0
  stagesize : Nat := 0
  share : Nat := 0
  qcount : Nat := 0
  diemask : Nat := 0
deriving DecidableEq, Repr

/-- A partition: configuration block (Table 2-1), policy block (Table 3-7), preserve quota (Table 16-5), retirement
log descriptor (Table 17-1), and the scheduler's own counters. The fields stand as they are written; `used` holds the values in force, those of the last record that the scheduler has
parsed (02_launch R34). -/
structure PartCfg where
  energy : Nat := 0
  stagebase : Nat := 0
  stagesize : Nat := 0
  lqbase : Nat := 0
  lqerr : Bool := false
  qerr : Bool := false
  dberr : Bool := false
  lqhead : Nat := 0
  lqtail : Nat := 0
  lqsize : Nat := 0
  share : Nat := 0
  qcount : Nat := 0
  diemask : Nat := 0
  enable : Bool := false
  stalled : Bool := false
  held : Bool := false
  recAt : Option Nat := none
  used : PartUse := {}
deriving DecidableEq, Repr

structure Policy where
  image : Nat := 0
  imglen : Nat := 0
  prio : Nat := 0
  grace : Nat := 50
  gslice : Nat := 0
  version : Nat := 0
  staged : Nat := 0
  overruns : Nat := 0
  lastcause : Nat := 0
  lastidx : Nat := 0
  stageidx : Nat := 0
  stagecode : Nat := 0
  keep : Bool := false
  taskswap : Bool := false
  disabled : Bool := false
  pending : Bool := false
  fallbacks : Nat := 0
  stamps : List Nat := []
deriving DecidableEq, Repr

structure Part where
  cfg : PartCfg := {}
  pol : Policy := {}
  pquota : Nat := 0
  pused : Nat := 0
  rlhead : Nat := 0
  rlsize : Nat := 0
  rlerr : Bool := false
  rlbase : Nat := 0
  seq : Nat := 0
  ordSeq : Nat := 0
  cplFaults : Nat := 0
  killFaults : Nat := 0
deriving DecidableEq, Repr

/-- Completion of a launch record that is still due (02_launch R43). -/
structure Launch where
  part : Nat
  index : Nat
  asid : Nat
  left : Nat
  cpladdr : Nat
  notify : Bool
  die : Nat := 0
deriving DecidableEq, Repr

/-! ## Messages, commands, boxes, packets -/

/-- A write-back in flight (08_memory_ops R194, R438). -/
structure WriteBack where
  id : Nat
  core : Nat
  line : Nat
  bytes : List Byte
  mask : List Bool
  slot : Option Nat
deriving DecidableEq, Repr

/-- An entry of a `DGETL` list: owner address, recipient index, tag, and the entry's own SPA (12_copy R312). -/
structure ListEntry where
  owner : Nat
  recip : Nat
  tag : Nat
  spa : Nat
deriving DecidableEq, Repr

/-- A copy command (12_copy R303, R308, R329). `fn` is fn[7:3]; `eng` the engine registers it read, `waits` the matrix
commands for which ONCONS waits. `next` is the next box to look at, `settled` are the boxes completed, `stopped` the
sides, recipients or entries that take no further box, `claims` the slots claimed by item, `results` the codes written
into a list, `keys` the bank, number in it and last mark of each packet. -/
structure Cmd where
  id : Nat
  who : Binding
  core : Nat
  asid : Nat
  fn : Nat
  token : Nat
  queue : Nat
  ra : Word
  rb : Word
  eng : FMap Word := []
  waits : List Nat := []
  nbox : Nat := 0
  prepared : Bool := false
  next : Nat := 0
  settled : List Nat := []
  stopped : List Nat := []
  entries : List ListEntry := []
  recipients : List Nat := []
  claims : FMap Nat := []
  results : FMap Nat := []
  keys : List (Nat × Nat × Bool) := []
  banks : List (Nat × Nat × Nat) := []
  flags : Nat := 0
  cancelled : Bool := false
  faulted : Bool := false
  stores : List Nat := []
  set : Option (List Range) := none
  cut : Option Nat := none
deriving DecidableEq, Repr

/-- A piece of a box: one row's stretch with its virtual address, SPA, offset in the item, length, and the
erasure-coding group of its range. -/
structure Piece where
  va : Nat
  spa : Nat
  off : Nat
  len : Nat
  ecg : Nat := 0
deriving DecidableEq, Repr

/-- A box on its way (12_copy R304), with all that its destination needs: `item` is the entry or recipient, `recip` the
recipient entry, `key` the sequence number at its bank, `outcome` a code once it is answered, `held` that it waits at an
ORDERED bank, `ownerSide` that the outcome is the owner's, `last` that it is the bank's last packet or the item's last box. -/
structure Box where
  id : Nat
  cmd : Nat
  who : Binding
  core : Nat
  asid : Nat
  fn : Nat
  num : Nat
  item : Nat := 0
  recip : Nat := 0
  src : List Piece := []
  pieces : List Piece := []
  snap : List Piece := []
  arrive : Option Piece := none
  data : List Byte := []
  e44 : Nat := 0
  bank : Nat := 0
  seq : Nat := 0
  last : Bool := false
  outcome : Nat := 0
  addr : Nat := 0
  dup : Bool := false
  flags : Nat := 0
  held : Bool := false
  ownerSide : Bool := false
  waitsAt : Option (Nat × Event) := none
  landed : List Nat := []
deriving DecidableEq, Repr

/-- A parity update on its way (12_copy R323): the data home's die, group, parity member, data member, chunk and the
deltas by offset. -/
structure Parity where
  id : Nat
  die : Nat
  group : Nat
  p : Nat
  member : Nat
  chunk : Nat
  deltas : List (Nat × Byte)
  box : Nat
deriving DecidableEq, Repr

/-- What a packet carries (14_fabric R351): a message, a box, the request for a box to the owner of a directed read, the
request for a line of a core's L1, a write-back, or a parity update, each by its number. -/
inductive Load where
  | msg (id : Nat)
  | box (id : Nat)
  | request (box : Nat)
  | fill (core line : Nat)
  | wb (id : Nat)
  | parity (id : Nat)
deriving DecidableEq, Repr

/-- A packet in the fabric (14_fabric R349): what it carries, the link it waits for or has left on, and its timer (R356).
`remote` says that the die map of this package names the destination. Its flits stand in the link's retry buffer up to the
time `acked`, and `resends` counts those of one flit (R355); `done` says that its destination has performed it, and `answer`
is the code with which a request for a line was answered. -/
structure Packet where
  id : Nat
  load : Load
  dst : Nat
  die : Nat
  detours : Nat := 0
  order : List Nat := [3, 2, 1, 0]
  flow : Nat := 0
  bulk : Bool := false
  remote : Bool := false
  port : Option Nat := none
  link : Option Nat := none
  sent : Bool := false
  start : Nat := 0
  limit : Nat := 0
  acked : Nat := 0
  resends : Nat := 0
  done : Bool := false
  answer : Option Nat := none
deriving DecidableEq, Repr

/-- A join entry of `QFENCE`: its core and the numbers of the commands that were in the named queues (13_consistency
R339). It resolves when none of them is left. -/
structure Join where
  id : Nat
  core : Nat
  ahead : List Nat
  port : Bool := false
deriving DecidableEq, Repr

/-- A member's request to form a matrix group: its core, binding and register, and its descriptor. -/
structure GroupAsk where
  core : Nat
  who : Binding
  reg : Fin 32
  desc : Nat
deriving DecidableEq, Repr

/-- A matrix group (10_matrix R270 to R276): members (cores), the group watchdog, requests before it is formed, completed
`MTILE`s by core, digests of the exchange under way, members past it, chunks multicast, chunks whose steps a member has
finished, members in a trap of their `MTILE` with its address, and members that are to end with fault 7 or 8. -/
structure Group where
  gid : Nat
  job : Nat
  task : Nat
  members : List Nat
  gwd : Nat
  formed : Bool := false
  asked : List GroupAsk := []
  doneTiles : FMap Nat := []
  digests : FMap Nat := []
  go : List Nat := []
  loaded : Nat := 0
  fin : FMap Nat := []
  midway : FMap Word := []
  abort : FMap Nat := []
  waited : FMap Nat := []
deriving DecidableEq, Repr

/-! ## Fabric and X-die blocks -/

/-- States of a link (14_fabric Table 14-1). -/
inductive LinkState where
  | down | training | up | paused | notConn
deriving DecidableEq, Repr

/-- A link of a port (14_fabric R347, R348), number 4 port + link. `kept` says that it was UP when its training began,
`marked` that a held clock change waits for it, `want` that a lane was lost while a clock change applied, and `trainAt` when
its pause before a training ends (R358). -/
structure Link where
  st : LinkState := .down
  live : Nat := 0
  width : Nat := 3
  weight : Nat := 0
  wovr : Bool := false
  events : Nat := 0
  upSince : Option Nat := none
  resends : Nat := 0
  credit : Int := 0
  kept : Bool := false
  marked : Bool := false
  want : Bool := false
  full : Bool := false
  trained : Bool := false
  trainAt : Option Nat := none
deriving DecidableEq, Repr

/-- The fabric as this package sees it (14_fabric R348 to R361). `guests` are copy commands of other packages whose boxes
come here. -/
structure Fabric where
  coord : Nat := 0
  nc : Nat := 1
  nd : Nat := 1
  tobase : Nat := 20
  detours : Nat := 2
  rclk : Nat := 0
  links : FMap Link := []
  fence : FMap (BitVec 16) := []
  redirects : FMap Redirect := []
  packets : List Packet := []
  guests : List Cmd := []
  rclkHeld : FMap Nat := []
  rclkApplying : FMap Bool := []
  clocks : FMap Nat := []
  xdieLost : FMap Bool := []
deriving DecidableEq, Repr

/-- A diagnosis in progress (16_recovery R395). -/
structure Diagnosis where
  id : Nat
  cls : FaultClass
  element : Nat
  t0 : Nat
  step : Nat := 1
  confirms : Nat := 0
  denies : Nat := 0
  failures : Nat := 0
  asked : Nat := 0
  replies : Nat := 0
deriving DecidableEq, Repr

/-- The range commit block of an X-die (04_placement Table 4-12); `reading` says that its image has not been read yet. -/
structure RangeBlock where
  status : Word := 0
  image : Nat := 0
  busy : Bool := false
  reading : Bool := false
  nm1 : Nat := 0
  asid : Nat := 0
deriving DecidableEq, Repr

/-- A range commit being carried out (04_placement R93): the new set, who asked, dies that have reported. -/
structure Commit where
  asid : Nat
  set : List Range
  host : Option Nat := none
  slot : Option (Nat × Fin 32) := none
  reported : List Nat := []
  latest : Nat := 0
  switchAt : Option Nat := none
deriving DecidableEq, Repr

/-- The scheduler command block of an X-die (16_recovery Table 16-10). -/
structure SchedBlock where
  arg : Word := 0
  status : Word := 0
  taskid : Nat := 0
  job : Nat := 0
  part : Nat := 0
  slot : Nat := 0
  busy : Bool := false
  cmd : Nat := 0
deriving DecidableEq, Repr

/-- The power control block (17_retire Table 17-4). -/
structure Power where
  pbudget : Nat := 4400
  pnow : Nat := 0
  tmax : Nat := 0
  throt : Nat := 0
deriving DecidableEq, Repr

/-- The X-die status word (17_retire Table 17-6). -/
structure Status where
  ready : Bool := false
  degraded : Bool := false
  step : Nat := 1
  lcs : Nat := 0
  calfail : Nat := 0
  errcode : Nat := 0
deriving DecidableEq, Repr

/-- A message-signalled interrupt or report that the package has sent to the host (02_launch R43,
15_interrupts R365, 16_recovery R402) or to the service processors (16_recovery R394). -/
inductive HostNote where
  | complete (part index : Nat)
  | parkedTask (part task : Nat)
  | parkedJob (job fcode element : Nat) (last : Option (Nat × Nat))
  | reported (fcode element : Nat)
  | degraded (group : Nat)
  | probeReply (pkg element : Nat) (confirm : Bool)
  | lostStripes (job : Nat) (stripes : List (Nat × Nat))
deriving DecidableEq, Repr

/-- A stripe group that has lost members (16_recovery R399): its group, its chunk number, the members lost, and when it
was last hit. -/
structure Stripe where
  group : Nat
  chunk : Nat
  members : List Nat
  hit : Nat := 0
  fcode : Nat := 4
  element : Nat := 0
deriving DecidableEq, Repr

/-- The rebuild in progress (16_recovery R399, R401): stripe groups still due, those marked lost, and the stripe groups
(group, chunk) on which accesses wait. -/
structure Rebuild where
  due : List Stripe := []
  gone : List Stripe := []
  waitingOn : List (Nat × Nat) := []
  latest : Nat := 0
deriving DecidableEq, Repr

/-- A gang slice across packages (03_accord R69): the packages with the first member and the number of members of each,
whether its members are to be bound now, and whether they once were, the packages whose members must be, and have been,
reported saved (15_interrupts R375), and the grace and the length in
ns that stood in the policy block when it started (R63). -/
structure Slice where
  task : Nat
  home : Nat
  start : Nat
  packages : List (Nat × Nat × Nat) := []
  started : Bool := false
  bound : Bool := false
  cancelled : Bool := false
  wanted : List Nat := []
  saved : List Nat := []
  grace : Nat := 50000
  gslice : Nat := 0
deriving DecidableEq, Repr

/-- A timer: at or after system time `due` the step takes place ("again after 64 ac", "at time T"). -/
structure Timer where
  due : Nat
  ev : Event
deriving DecidableEq, Repr

/-- The blocks and counters of the X-dies and the scheduler. -/
structure Package where
  status : Status := {}
  map : FMap MapEntry := []
  localSpares : List Nat := []
  keys : List Nat := []
  rangeBlocks : FMap RangeBlock := []
  commits : List Commit := []
  schedBlocks : FMap SchedBlock := []
  power : Power := {}
  diags : List Diagnosis := []
  rebuild : Rebuild := {}
  notes : List HostNote := []
  slices : List Slice := []
  triggers : List (Nat × Nat × Nat) := []
  ciphers : FMap Nat := []
  launches : List Launch := []
  poweredOff : Bool := false
  pkgLosses : List (Nat × Nat) := []
  pkgHandled : List Nat := []
  voteBy : FMap Nat := []
deriving DecidableEq, Repr

/-! ## The machine -/

/-- The state of the package. `mem` and `full` are keyed by SPA[45:0]: the bytes of DRAM, LM, ACC and BST, and
the words of LM and DRAM whose full/empty bit is full (04_placement R81, 08_memory_ops R197). `bad` are words that
hold an uncorrectable error (16_recovery R394). `cycle` is the ac count, `now` the system time in ns, `freeCtr`
the model's own number of the next free value, `nextId` the next number for a message, command or box. -/
structure State where
  mem : Memory := []
  full : List Nat := []
  bad : List Nat := []
  slots : FMap Slot := []
  cores : FMap Core := []
  clusters : FMap Cluster := []
  dies : FMap Die := []
  parts : FMap Part := []
  jobs : List Job := []
  tasks : List Task := []
  domains : List Domain := []
  msgs : List Msg := []
  wbs : List WriteBack := []
  cmds : List Cmd := []
  boxes : List Box := []
  parity : List Parity := []
  joins : List Join := []
  groups : List Group := []
  fabric : Fabric := {}
  pkg : Package := {}
  agenda : List Event := []
  timers : List Timer := []
  cur : Nat := 0
  cycle : Nat := 0
  bootCycle : Nat := 0
  now : Nat := 0
  freeCtr : Nat := 0
  nextId : Nat := 0
deriving DecidableEq, Repr

/-- Faults of the machine itself. -/
inductive Fault where
  /-- Raised by `step` when the board controller has removed package power and no power-good step is due
  (17_retire R411): nothing executes. Safe: the package stops. -/
  | packageOff
deriving DecidableEq, Repr

/-- Refusals of the model. -/
inductive Refusal where
  /-- Raised by an arm of `exec` whose instruction has no meaning yet. Safe: the run stops. -/
  | notModelled (mnemonic : String)
deriving DecidableEq, Repr

/-- The die map that bring-up assigns from the calibration result (04_placement R73, 17_retire R413): passing C-dies
0 to 8 take logical 0 to 7 in order, passing H-dies 9 to 13 logical 8 to 11; an unfilled entry is FENCED. -/
def assignDies (calfail : Nat) (first count logical n : Nat) : FMap MapEntry × List Nat :=
  let pass := (List.range count).map (· + first) |>.filter (fun p => !bitAt calfail p)
  ((List.range n).map (fun i => (logical + i,
      match pass[i]? with
      | some p => { valid := true, phys := p }
      | none => { fenced := true })), pass.drop n)

/-- The whole map: the X-dies are physical dies 14 and 15 (04_placement R73). -/
def bringUpMap (calfail : Nat) : FMap MapEntry × List Nat :=
  let c := assignDies calfail 0 9 0 8
  let h := assignDies calfail 9 5 8 4
  (c.1 ++ h.1 ++ [(12, { valid := !bitAt calfail 14, phys := 14 }), (13, { valid := !bitAt calfail 15, phys := 15 })],
    c.2 ++ h.2)

/-- The package after bring-up with the calibration result `calfail` (17_retire R412, R413): every memory, register
and window wiped, the die map assigned, READY set unless both X-dies failed (ERRCODE 0x03). Links of a failed
X-die are DOWN as after its loss. LCS is not given by the manual. -/
def State.bringUp (calfail : Nat) (lcs : Nat) : State :=
  let m := bringUpMap calfail
  let both := bitAt calfail 14 && bitAt calfail 15
  { pkg :=
      { status :=
          { ready := !both, degraded := !both && (m.1.any (fun e => e.1 < 12 && e.2.fenced)),
            step := if both then 3 else 5, lcs := lcs, calfail := calfail, errcode := if both then 3 else 0 },
        map := if both then [] else m.1, localSpares := if both then [] else m.2 },
    fabric := { xdieLost := [(12, bitAt calfail 14), (13, bitAt calfail 15)] } }

/-- The machine right after bring-up with every die passing (17_retire R412): nothing placed, nothing queued. -/
def State.reset : State := State.bringUp 0 0

end Machine
end Sys2Proof
end

