-- ==== Sys2Proof/Machine/Ops.lean ====
section
/-!
DEFINITION. The named operations on the state: slots, registers, the agenda and the timers, memory and its
full/empty bits, system physical addresses, taking a trap and returning from one, and the energy meter.
-/
namespace Sys2Proof
namespace Machine

/-- What `exec` and `step` answer. -/
abbrev Out := Host.Outcome State Fault Refusal

/-! ## Numbers of slots, cores, clusters and dies -/

/-- The core of a hardware slot; a core's number is die · 512 + cluster · 8 + index (04_placement R96). -/
def coreOfSlot (k : Nat) : Nat := k / 16
def dieOfCore (c : Nat) : Nat := c / 512
def dieOfSlot (k : Nat) : Nat := dieOfCore (coreOfSlot k)
def clusterOfCore (c : Nat) : Nat := c / 8
def clusterOfSlot (k : Nat) : Nat := clusterOfCore (coreOfSlot k)

/-- The partner of a core in a checked pair: the core four further on in its cluster (15_interrupts R376). -/
def partnerCore (c : Nat) : Nat := c / 8 * 8 + (c + 4) % 8

/-- The 16 hardware slots of a core. -/
def slotsOfCore (c : Nat) : List Nat := (List.range 16).map (fun i => c * 16 + i)

/-- The 8 cores of a cluster. -/
def coresOfCluster (q : Nat) : List Nat := (List.range 8).map (fun i => q * 8 + i)

/-! ## Reading and replacing parts of the state -/

/-- A slot as bring-up leaves it: every register zero and empty (17_retire R412). -/
def Slot.wiped : Slot := { g := Vector.replicate 32 { st := .empty } }
def State.slotAt (s : State) (k : Nat) : Slot := FMap.get Slot.wiped s.slots k
def State.setSlot (s : State) (k : Nat) (x : Slot) : State := { s with slots := FMap.set k x s.slots }
def State.modSlot (s : State) (k : Nat) (f : Slot → Slot) : State := s.setSlot k (f (s.slotAt k))
def State.curSlot (s : State) : Slot := s.slotAt s.cur
def State.modCur (s : State) (f : Slot → Slot) : State := s.modSlot s.cur f
def State.coreAt (s : State) (c : Nat) : Core := FMap.get {} s.cores c
def State.modCore (s : State) (c : Nat) (f : Core → Core) : State :=
  { s with cores := FMap.set c (f (s.coreAt c)) s.cores }
def State.clusterAt (s : State) (q : Nat) : Cluster := FMap.get {} s.clusters q
def State.modCluster (s : State) (q : Nat) (f : Cluster → Cluster) : State :=
  { s with clusters := FMap.set q (f (s.clusterAt q)) s.clusters }
def State.dieAt (s : State) (d : Nat) : Die := FMap.get {} s.dies d
def State.modDie (s : State) (d : Nat) (f : Die → Die) : State := { s with dies := FMap.set d (f (s.dieAt d)) s.dies }
/-- The order contexts of a bank are closed: the memory that it serves is wiped (12_copy R318). -/
def State.closeBank (s : State) (die bank : Nat) : State :=
  s.modDie die (fun d => { d with banks := d.banks.map (fun e => if e.1 = bank then (e.1, { e.2 with ctx := [] }) else e) })
def State.partAt (s : State) (p : Nat) : Part := FMap.get {} s.parts p
def State.modPart (s : State) (p : Nat) (f : Part → Part) : State :=
  { s with parts := FMap.set p (f (s.partAt p)) s.parts }
def State.modPkg (s : State) (f : Package → Package) : State := { s with pkg := f s.pkg }
def State.modFabric (s : State) (f : Fabric → Fabric) : State := { s with fabric := f s.fabric }

/-- The die map entry of a logical die (04_placement R73). -/
def State.mapAt (s : State) (d : Nat) : MapEntry := FMap.get {} s.pkg.map d

/-- The bits of an SPA; above them a translated address carries the number of its range's key, one more than KEY, and 0 where
the range is not encrypted. -/
def spaBits (a : Nat) : Nat := a % 2 ^ 64
def spaCipher (a : Nat) : Nat := a / 2 ^ 64
/-- The number of a line without the number of a key. -/
def lineBits (line : Nat) : Nat := line % 2 ^ 59

/-- The task with an id that has not left the scheduler. -/
def State.findTask (s : State) (id : Nat) : Option Task := s.tasks.find? (fun t => t.id == id)
def Task.noTask : Task := { id := 0, decl := {} }
def State.taskAt (s : State) (id : Nat) : Task := (s.findTask id).getD Task.noTask
def State.modTask (s : State) (id : Nat) (f : Task → Task) : State :=
  { s with tasks := s.tasks.map (fun t => if t.id = id then f t else t) }
/-- The task to which a slot is bound (01_work R9). -/
def State.boundTask (s : State) (k : Nat) : Option Task := (s.slotAt k).bind.bind (fun b => s.findTask b.task)
def State.slotTask (s : State) (k : Nat) : Task := (s.boundTask k).getD Task.noTask
/-- A line that a slot's ordered task writes past the write buffer joins its write set (01_work R22, R24). -/
def State.tagWrite (s : State) (k spa : Nat) : State :=
  let t := s.slotTask k
  if t.decl.kind = 1 ∧ !t.wrote.contains (lineBits (spa / 32)) then
    s.modTask t.id (fun t => { t with wrote := lineBits (spa / 32) :: t.wrote })
  else s
/-- Dispatch decisions of the partitions and dies that a test names may be posed again (03_accord R50). -/
def State.unquiet (s : State) (f : Nat → Nat → Bool) : State :=
  { s with dies := s.dies.map (fun d => (d.1, { d.2 with parts := d.2.parts.map (fun p =>
      (p.1, { p.2 with quiet := p.2.quiet && !f d.1 p.1 })) })) }
/-- A task of the partition has become READY. -/
def State.unquietPart (s : State) (part : Nat) : State := s.unquiet (fun _ p => p == part)
/-- A slot of the dies has become free, or an owner field there has changed. -/
def State.unquietDies (s : State) (dies : List Nat) : State := s.unquiet (fun d _ => dies.contains d)
/-- The slots bound to a task, in slot order. -/
def State.slotsOf (s : State) (id : Nat) : List Nat :=
  s.slots.filterMap (fun e => if e.2.bind.any (fun b => b.task == id) then some e.1 else none)
def State.modSlots (s : State) (ks : List Nat) (f : Slot → Slot) : State := ks.foldl (fun s k => s.modSlot k f) s
/-- A slot in SPECULATIVE state (01_work R21). -/
def State.speculative (s : State) (k : Nat) : Bool := (s.slotTask k).st == .speculative
def State.asidOf (s : State) (k : Nat) : Nat := (s.slotTask k).asid
def State.modDomain (s : State) (job id : Nat) (f : Domain → Domain) : State :=
  { s with domains := s.domains.map (fun d => if d.job = job ∧ d.id = id then f d else d) }
def State.findDomain (s : State) (job id : Nat) : Option Domain :=
  s.domains.find? (fun d => d.job == job && d.id == id)
def State.modJob (s : State) (j : Nat) (f : Job → Job) : State :=
  { s with jobs := s.jobs.map (fun x => if x.num = j then f x else x) }
def State.findJob (s : State) (j : Nat) : Option Job := s.jobs.find? (fun x => x.num == j)
def State.findMsg (s : State) (id : Nat) : Option Msg := s.msgs.find? (fun m => m.id == id)
def State.modMsg (s : State) (id : Nat) (f : Msg → Msg) : State :=
  { s with msgs := s.msgs.map (fun m => if m.id = id then f m else m) }
def State.dropMsg (s : State) (id : Nat) : State := { s with msgs := s.msgs.filter (fun m => m.id != id) }

/-! ## Agenda and timers -/

/-- A consequence that takes place after every step already due. -/
def State.push (s : State) (e : Event) : State := { s with agenda := s.agenda ++ [e] }
def State.pushAll (s : State) (es : List Event) : State := { s with agenda := s.agenda ++ es }
/-- A step that is due `ns` nanoseconds of system time from now. -/
def State.after (s : State) (ns : Nat) (e : Event) : State := { s with timers := s.timers ++ [⟨s.now + ns, e⟩] }
/-- Nanoseconds of ac cycles at the nominal 940 MHz (00_scope R5). -/
def acNs (n : Nat) : Nat := n * 50 / 47
def State.fresh (s : State) : Nat := s.nextId
def State.bumpId (s : State) : State := { s with nextId := s.nextId + 1 }

/-! ## Registers -/

/-- The value of a general register; g0 reads zero (05_encoding R129). -/
def Slot.reg (x : Slot) (r : Fin 32) : Word := if r = 0 then 0 else (x.g[r.val]'r.isLt).val
/-- A register that an instruction can read: full; g0 is always full (06_scalar R138). -/
def Slot.ready (x : Slot) (r : Fin 32) : Bool := r = 0 || (x.g[r.val]'r.isLt).st == .full
/-- A pending register (06_scalar R138), or one of the saved state 11. -/
def Slot.pending (x : Slot) (r : Fin 32) : Bool :=
  r ≠ 0 && ((x.g[r.val]'r.isLt).st == .pending || (x.g[r.val]'r.isLt).st == .resend)
/-- A write makes the register full; a write to g0 is discarded (06_scalar R138, 05_encoding R129). -/
def Slot.setReg (x : Slot) (r : Fin 32) (v : Word) : Slot :=
  if r = 0 then x else { x with g := x.g.set r.val ⟨v, .full⟩ r.isLt }
/-- A change of state that keeps the value (06_scalar R142). -/
def Slot.setSt (x : Slot) (r : Fin 32) (t : RegState) : Slot :=
  if r = 0 then x else { x with g := x.g.set r.val ⟨(x.g[r.val]'r.isLt).val, t⟩ r.isLt }
def regFin (n : Nat) : Fin 32 := ⟨n % 32, Nat.mod_lt _ (by decide)⟩
def State.reg (s : State) (r : Fin 32) : Word := s.curSlot.reg r
def State.regNat (s : State) (r : Fin 32) : Nat := (s.reg r).toNat
def State.setReg (s : State) (r : Fin 32) (v : Word) : State := s.modCur (fun x => x.setReg r v)

/-! ## Issue, retirement and bubbles -/

/-- The slot is in its trap handler (06_scalar Table 6-11). -/
def Slot.intrap (x : Slot) : Bool := x.csr.tstat.getLsbD 0
def Slot.setIntrap (x : Slot) (b : Bool) : Slot :=
  { x with csr := { x.csr with tstat := if b then x.csr.tstat ||| 1 else x.csr.tstat &&& (~~~ 1#64) } }

/-- Counts the issue, once for an instruction that is issued again after a hold: the turn of such an issue counts as lost,
so that issued and lost together grow by one at each turn (06_scalar R162). Clears a progress index that belongs to
another address (09_vector R233, 15_interrupts R364). -/
def Slot.noteIssue (x : Slot) : Slot :=
  let y := if x.reissue then { x with reissue := false, blocked := false, idle := 0, lost := x.lost + 1 }
    else { x with issued := x.issued + 1, blocked := false, idle := 0 }
  if !y.intrap && y.pixAt != some y.pc then { y with pix := 0, pixAt := none } else y

/-- An instruction retires: the next one stands four bytes on. At 0x0000_FFFF_FFFF_FFFC the sum leaves the 48 bits of a
pc (05_encoding R100 says nothing of that step): the model keeps it, and the next fetch traps (log entry 101). -/
def Slot.retire (x : Slot) : Slot := { x.noteIssue with pc := x.pc + 4 }
/-- A turn at which the core issues nothing (06_scalar R135). -/
def Slot.bubble (x : Slot) : Slot := { x with lost := x.lost + 1, idle := x.idle + 1 }
/-- The same where the turn does not count towards the watchdog (16_recovery R393). -/
def Slot.pause (x : Slot) : Slot := { x with lost := x.lost + 1 }
/-- The turn of a slot whose access finds the speculative structures full: from now on it waits until its task is head
(01_work R22). -/
def Slot.block (x : Slot) : Slot := { x.pause with blocked := true }
/-- A held instruction waits without a message of its own: it has issued, and is issued again at the next turn; until it
retires no asynchronous trap is taken (06_scalar R141). -/
def Slot.stay (x : Slot) : Slot := if x.reissue then x.bubble else { x.noteIssue with reissue := true }
/-- The instruction has issued and keeps the slot waiting (06_scalar R141). -/
def Slot.hang (x : Slot) (h : Hold) : Slot := { x.noteIssue with hold := some h }
/-- A held instruction retires. -/
def Slot.finish (x : Slot) : Slot := { x with hold := none, reissue := false, pc := x.pc + 4 }
/-- A held instruction ends without having retired and is issued again. -/
def Slot.again (x : Slot) : Slot := { x with hold := none, reissue := true }

def State.retire (s : State) : State := s.modCur Slot.retire
def State.bubble (s : State) : State := s.modCur Slot.bubble
def State.pause (s : State) : State := s.modCur Slot.pause
def State.stay (s : State) : State := s.modCur Slot.stay
def State.block (s : State) : State := s.modCur Slot.block

/-! ## Traps (15_interrupts R362 to R366) -/

/-- tcause: the cause, with ASYNC in bit 63 (R362). -/
def causeWord (cause : Nat) (asyn : Bool) : Word := BitVec.ofBool asyn ++ BitVec.ofNat 63 cause

/-- The trap registers: tcause, tpc, tval (R362, R363). -/
def Slot.withTrap (x : Slot) (cause : Nat) (asyn : Bool) (pcv valv : Word) : Slot :=
  { x with csr := { x.csr with tcause := causeWord cause asyn, tpc := pcv, tval := valv } }

/-- What a save leads to, the stronger of two (15_interrupts R371). -/
def SaveEnd.join : Option SaveEnd → SaveEnd → SaveEnd
  | some .parkRolledBack, _ => .parkRolledBack
  | some .park, .plain => .park
  | _, e => e

/-- Weight-path steps of a core that are due in this same moment: an `MCBT`, or a read that may empty a bank. They go before a
window write of a bank (11_grouped R293). -/
def State.tableDue (s : State) (core : Nat) : Bool :=
  [Event.mcbtExecute core, .mldaExecute core, .mldbExecute core, .mtileSequencerStep core].any s.agenda.contains

/-- A save is looked at at the next rotation boundary, once: what it frees is free at that boundary (R367). -/
def State.saveLater (s : State) (id : Nat) : State :=
  if s.timers.any (fun t => t.ev == .preemptionSave id) then s else s.after (acNs 16) (.preemptionSave id)

/-- From now on no slot of the task issues, and its slots are saved once they have settled (R367). Turns that a
`YIELD` has not yet lost are discarded (06_scalar R155). -/
def State.stopTask (s : State) (id : Nat) (e : SaveEnd) : State :=
  let s := s.modSlots (s.slotsOf id) (fun x => { x with stopped := true, yielding := 0 })
  let s := s.modTask id (fun t => { t with saving := some (SaveEnd.join t.saving e) })
  s.saveLater id

/-- Trap entry, and the treatment of a trap that finds no handler (R363, R365). -/
def State.enterTrap (s : State) (k cause : Nat) (asyn : Bool) (pcv valv : Word) : State :=
  let x := s.slotAt k
  let y := { x.withTrap cause asyn pcv valv with hold := none, reissue := false }
  let task := (x.bind.map (·.task)).getD 0
  if !x.intrap && x.csr.tvec != 0 then s.setSlot k { y.setIntrap true with pc := x.csr.tvec }
  else if !x.intrap && (cause == 6 || cause == 7) then (s.setSlot k { y with pc := pcv }).stopTask task .park
  else (s.setSlot k { y.setIntrap true with pc := pcv }).stopTask task .parkRolledBack

/-- A precise trap of the instruction that the current slot issues. -/
def State.trap (s : State) (cause : Nat) (valv : Word) : State :=
  (s.modCur Slot.noteIssue).enterTrap s.cur cause false s.curSlot.pc valv

/-- The same for a held instruction of slot `k`, whose issue has been counted. -/
def State.trapHeld (s : State) (k cause : Nat) (valv : Word) : State :=
  s.enterTrap k cause false (s.slotAt k).pc valv

/-- A pending asynchronous trap joins the slot's list with its arrival stamp (R366). -/
def Slot.post (x : Slot) (cause : Nat) (valv : Word) (reg mode : Nat := 0) : Slot :=
  { x with pend := x.pend ++ [{ cause := cause, tval := valv, stamp := x.stamp, reg := reg, mode := mode }],
           stamp := (x.stamp + 1) % 65536 }

/-! ## Memory -/

/-- One byte of memory. -/
def Memory.read (m : Memory) (a : Nat) : Byte := (FMap.find m a).getD Memory.unlisted

/-- One byte written; a zero byte takes its entry out, so that the form stays canonical. -/
def Memory.write (a : Nat) (b : Byte) : Memory → Memory
  | [] => if b = Memory.unlisted then [] else [(a, b)]
  | (c, x) :: m =>
    if c < a then (c, x) :: Memory.write a b m
    else
      let rest := if c = a then m else (c, x) :: m
      if b = Memory.unlisted then rest else (a, b) :: rest

def Memory.readList (m : Memory) (a n : Nat) : List Byte := (List.range n).map (fun i => Memory.read m (a + i))

def Memory.writeList (m : Memory) (a : Nat) : List Byte → Memory
  | [] => m
  | b :: bs => Memory.writeList (Memory.write a b m) (a + 1) bs

/-- A stretch of bytes read as zero again. -/
def Memory.wipe (m : Memory) (a n : Nat) : Memory := m.filter (fun c => c.1 < a || a + n ≤ c.1)

/-- The number that bytes stand for, the first the least significant (00_scope R6). -/
def leNat : List Byte → Nat
  | [] => 0
  | b :: bs => b.toNat + 256 * leNat bs

def leBytes : Nat → Nat → List Byte
  | 0, _ => []
  | n + 1, v => BitVec.ofNat 8 v :: leBytes n (v / 256)

/-! ## Encrypted memory (04_placement R88) -/

/-- Two 16-byte values change places. -/
def swapOf (x : Nat) (p : Nat × Nat) : Nat :=
  if x = p.1 % 2 ^ 128 then p.2 % 2 ^ 128 else if x = p.2 % 2 ^ 128 then p.1 % 2 ^ 128 else x

/-- What the DRAM holds of a 16-byte block under the key of number `c`, and what a read under it makes of that. -/
def encipher (c block x : Nat) : Nat := if c = 0 then x else (Config.xtsSwaps (c - 1) block).foldl swapOf x
def decipher (c block x : Nat) : Nat := if c = 0 then x else (Config.xtsSwaps (c - 1) block).foldr (fun p x => swapOf x p) x

/-- A 16-byte block, by its number, as it reads under the key of number `c`: its bytes are held as the last writer gave them,
beside the number of the writer's key. -/
def State.reblock (s : State) (c b : Nat) : State :=
  let w := FMap.get 0 s.pkg.ciphers b
  if w = c then s
  else
    let x := decipher c (16 * b) (encipher w (16 * b) (leNat (Memory.readList s.mem (16 * b) 16)))
    { s with
      mem := Memory.writeList s.mem (16 * b) (leBytes 16 x),
      pkg := { s.pkg with ciphers := if c = 0 then FMap.drop b s.pkg.ciphers else FMap.set b c s.pkg.ciphers } }

/-- The blocks of `n` bytes at a local address as they read under the key of number `c`. -/
def State.underKey (s : State) (c a n : Nat) : State :=
  if n = 0 then s else (List.range ((a + n - 1) / 16 - a / 16 + 1)).foldl (fun s i => s.reblock c (a / 16 + i)) s

/-- Bytes of memory as they read under a key. -/
def State.readUnder (s : State) (c a n : Nat) : List Byte := Memory.readList (s.underKey c a n).mem a n

/-- A sorted list of word numbers with one added or taken out. -/
def insertWord (a : Nat) : List Nat → List Nat
  | [] => [a]
  | b :: l => if b < a then b :: insertWord a l else if b = a then b :: l else a :: b :: l

def setWord (l : List Nat) (a : Nat) (b : Bool) : List Nat :=
  if b then insertWord a l else l.filter (fun x => x != a)

/-- The full/empty bit of the word at a local address (08_memory_ops R197); after a wipe words are empty. -/
def State.isFull (s : State) (a : Nat) : Bool := s.full.contains (a / 8)
def State.setFull (s : State) (a : Nat) (b : Bool) : State := { s with full := setWord s.full (a / 8) b }

/-- The task of an arrival trigger goes to QUEUED once its word is at least TCOUNT (02_launch R45); a trigger names
the word's local address, TCOUNT and the task. The task's fetches then start (02_launch R42). -/
def State.enqueue (s : State) (id : Nat) : State :=
  let t := s.taskAt id
  let s := { s with tasks := s.tasks.filter (fun (u : Task) => u.id != id) ++ [{ t with st := .queued }] }
  s.push (.stagingFetchComplete id t.decl.nin)

/-- Staging space may have become free: QUEUED tasks of a partition look again (02_launch R42). -/
def State.fetchAgain (s : State) (part : Nat) : State :=
  s.pushAll ((s.tasks.filter (fun t => t.part == part && t.st == .queued)).map (fun t =>
    .stagingFetchComplete t.id t.decl.nin))

def State.fireTriggers (s : State) : State :=
  let due := s.pkg.triggers.filter (fun t => t.2.1 ≤ leNat (s.readUnder (spaCipher t.1) (spaBits t.1) 8))
  let s := s.modPkg (fun p => { p with triggers := p.triggers.filter (fun t => !due.contains t) })
  due.foldl (fun s t => s.enqueue t.2.2) s

/-- Bytes stored at a local address: a word written whole no longer holds an uncorrectable error, and arrival
triggers on the words written are compared. -/
def State.store (s : State) (a : Nat) (bs : List Byte) : State :=
  let s' := { s with
    mem := Memory.writeList s.mem a bs,
    bad := s.bad.filter (fun w => !(a ≤ 8 * w && 8 * w + 8 ≤ a + bs.length)) }
  if s'.pkg.triggers.any (fun t => spaBits t.1 < a + bs.length && a < spaBits t.1 + 8) then s'.fireTriggers else s'

/-- Bytes `v` to `v + n - 1` cut at multiples of `g`: start and length. -/
def cutAt (g v n : Nat) : List (Nat × Nat) :=
  if n = 0 then []
  else (List.range ((v + n - 1) / g - v / g + 1)).map (fun i =>
    let a := max v (g * (v / g + i))
    (a, min (v + n) (g * (v / g + i + 1)) - a))

/-- A stretch is written with zeros. -/
def State.wipeRange (s : State) (a n : Nat) : State :=
  { s with mem := s.mem.wipe a n, bad := s.bad.filter (fun w => !(a ≤ 8 * w && 8 * w + 8 ≤ a + n)) }

/-- The addressed bytes of a mask, one by one. -/
def maskBytes (a : Nat) : List Byte → List Bool → List (Nat × Byte)
  | b :: bs, m :: ms => if m then (a, b) :: maskBytes (a + 1) bs ms else maskBytes (a + 1) bs ms
  | _, _ => []

/-- The masked bytes of a stretch stored in one write: arrival triggers are compared once it is done (02_launch R45). -/
def State.storeMask (s : State) (a : Nat) (bs : List Byte) (mask : List Bool) : State :=
  let ws := maskBytes a bs mask
  let s' := { s with
    mem := ws.foldl (fun m (b : Nat × Byte) => Memory.write b.1 b.2 m) s.mem,
    bad := s.bad.filter (fun w => !(List.range 8).all (fun i => ws.any (fun b => b.1 == 8 * w + i))) }
  if s'.pkg.triggers.any (fun t => ws.any (fun b => spaBits t.1 ≤ b.1 && b.1 < spaBits t.1 + 8)) then s'.fireTriggers else s'

def State.storeNat (s : State) (a n v : Nat) : State := s.store a (leBytes n v)
def State.loadNat (s : State) (a n : Nat) : Nat := leNat (Memory.readList s.mem a n)

/-- A word among the addressed bytes holds an uncorrectable error (16_recovery R394). -/
def State.isBad (s : State) (a n : Nat) : Bool := s.bad.any (fun w => 8 * w < a + n && a < 8 * w + 8)

/-! ## System physical addresses (04_placement R76 to R82) -/

/-- The windows that an address can name; `bad` is an address that raises an access fault. -/
inductive Win where
  | dram | lm | reg | tbl | acc | bst | bad
deriving DecidableEq, Repr

/-- Where an SPA lies: in this package or outside, the logical die (14 and 15 stand for spares that serve another
package), the window, the address by which memory is keyed, and the number of the key under which it is reached. -/
structure Home where
  outside : Bool
  die : Nat
  win : Win
  cluster : Nat
  core : Nat
  off : Nat
  key : Nat
  cipher : Nat := 0
deriving DecidableEq, Repr

def spaDie (a : Nat) : Nat := fieldAt a 42 4
def spaClass (a : Nat) : Nat := fieldAt a 40 2
def spaOffset (a : Nat) : Nat := fieldAt a 0 40
def spaFabric (a : Nat) : Bool := bitAt a 59
def spaPkg (a : Nat) : Nat := fieldAt a 46 13
def mkSpa (die cls off : Nat) : Nat := die * 2 ^ 42 + cls * 2 ^ 40 + off

/-- Which window a class and an offset of a die name (R77, R78, R82). -/
def winOf (die cls off : Nat) : Win :=
  let cl := fieldAt off 33 7
  let co := fieldAt off 30 3
  let ty := fieldAt off 26 4
  let o := fieldAt off 0 26
  if !Config.isComputeDie die then .bad
  else if cls = 0 then if off < Config.dramBytes die then .dram else .bad
  else if cls = 1 then
    if Config.clusters die ≤ cl then .bad
    else if ty = 0 then if o < Config.lmBytes then .lm else .bad
    else if ty = 1 then if o < 4096 then .reg else .bad
    else if ty = 2 then if o < 128 then .tbl else .bad
    else if ty = 8 then if co = 0 && o < Config.accBytes die then .acc else .bad
    else if ty = 9 then if co = 0 && o < Config.bstBytes die then .bst else .bad
    else .bad
  else .bad

/-- The redirect entry of another package's logical die (R74). -/
def State.redirect (s : State) (pkg die : Nat) : Option Redirect :=
  (s.fabric.redirects.map (·.2)).find? (fun r => r.valid && r.spkg == pkg && r.sdie == die)

/-- This package serves as its own the accesses that name another coordinate (16_recovery R398). -/
def State.standsFor (s : State) (pkg : Nat) : Bool :=
  s.fabric.redirects.any (fun r => r.2.valid && r.2.sdie == 15 && r.2.spkg == pkg && r.2.tpkg == s.fabric.coord)

/-- Where an SPA lies (R74, R76). FABRIC = 0 with a coordinate is an access fault, as the field must be zero. -/
def State.home (s : State) (a : Nat) : Home :=
  let d := spaDie a
  let win := if !spaFabric a && spaPkg a != 0 then .bad else winOf d (spaClass a) (spaOffset a)
  let own := !spaFabric a || spaPkg a == s.fabric.coord || s.standsFor (spaPkg a)
  let served := if own then none else s.redirect (spaPkg a) d
  let here := own && !(s.mapAt d).remote
  let spare := served.any (fun r => r.tpkg == s.fabric.coord)
  let spareDie := if d < 8 then 14 else 15
  let die := if spare then spareDie else d
  { outside := !(here || spare), die := die, win := win, cluster := fieldAt a 33 7, core := fieldAt a 30 3,
    off := if win = .dram then spaOffset a else fieldAt a 0 26,
    key := mkSpa die (spaClass a) (spaOffset a), cipher := spaCipher a }

/-- Memory as an access to `n` bytes at a home finds it: only the transfers of DRAM are encrypted (R88). -/
def State.under (s : State) (h : Home) (n : Nat) : State := if h.win = .dram then s.underKey h.cipher h.key n else s

/-- The global number of the core that a core window names. -/
def Home.coreNum (h : Home) : Nat := h.die * 512 + h.cluster * 8 + h.core
/-- The number of the cluster that a window names. -/
def Home.clusterNum (h : Home) : Nat := h.die * 64 + h.cluster

/-- LM and DRAM, whose words carry full/empty bits (08_memory_ops R197). -/
def Home.synchronises (h : Home) : Bool := h.win == .lm || h.win == .dram

/-- The SPA offset of a core's window of a type, and of a cluster's. -/
def coreWindow (c ty : Nat) : Nat :=
  mkSpa (dieOfCore c) 1 ((c / 8 % 64) * 2 ^ 33 + (c % 8) * 2 ^ 30 + ty * 2 ^ 26)
def clusterWindow (q ty : Nat) : Nat := mkSpa (q / 64) 1 ((q % 64) * 2 ^ 33 + ty * 2 ^ 26)
/-- The local address of byte 0 of a core's local memory, of a cluster's accumulator memory and of its B-store. -/
def lmBase (c : Nat) : Nat := coreWindow c 0
def accBase (q : Nat) : Nat := clusterWindow q 8
def bstBase (q : Nat) : Nat := clusterWindow q 9

/-- The refusal with which a router answers an access to a logical die: DIE-FENCED (R75). -/
def State.dieCode (s : State) (die : Nat) : Nat :=
  if die < 14 && ((s.mapAt die).fenced || !(s.mapAt die).valid) then 2 else 0

/-- The word lies on a die of this package that is lost and not yet fenced: what goes there is held at the router
(16_recovery R404). -/
def State.lostHome (s : State) (h : Home) : Bool := !h.outside && s.dieCode h.die == 0 && (s.dieAt h.die).lost
def State.heldLine (s : State) (line : Nat) : Bool := s.lostHome (s.home (line * 32))

/-! ## Chunks of erasure-coding groups -/

/-- An SPA of this package named without its coordinate: both names are those of one byte (04_placement R76). -/
def State.plainSpa (s : State) (a : Nat) : Nat :=
  if spaFabric a && (spaPkg a == s.fabric.coord || s.standsFor (spaPkg a)) then a % 2 ^ 46 else spaBits a

/-- The member, chunk and byte in it of an erasure-coding group in whose region an SPA lies (12_copy R322). -/
def State.ecgByte (s : State) (die group spa : Nat) : Option (Nat × Nat × Nat) :=
  let g := FMap.get {} (s.dieAt die).ecg group
  let a := s.plainSpa spa
  let bases := (g.mbase.take (g.k + g.p)).map (fun b => s.plainSpa (b * 256))
  (bases.zipIdx.find? (fun b => b.1 ≤ a && a < b.1 + g.size * 256)).map
    (fun b => (b.2, (a - b.1) / 256, (a - b.1) % 256))

/-- The member and chunk of an erasure-coding group in whose region an SPA lies. -/
def State.ecgPlace (s : State) (die group spa : Nat) : Option (Nat × Nat) :=
  (s.ecgByte die group spa).map (fun x => (x.1, x.2.1))

/-- An address lies in a lost chunk of a stripe group. -/
def State.stripeHas (s : State) (spa : Nat) (d : Stripe) : Bool :=
  match s.ecgPlace (s.home spa).die d.group spa with
  | some (m, c) => c == d.chunk && d.members.contains m
  | none => false

/-- An address lies in the chunk of any member of a stripe group. -/
def State.stripeCovers (s : State) (spa : Nat) (d : Stripe) : Bool :=
  (s.ecgPlace (s.home spa).die d.group spa).any (fun p => p.2 == d.chunk)

/-- A chunk that awaits its rebuild (16_recovery R399): the stripe group and the chunk. -/
def State.lostChunk (s : State) (spa : Nat) : Option (Nat × Nat) :=
  (s.pkg.rebuild.due.find? (s.stripeHas spa)).map (fun d => (d.group, d.chunk))

/-- A chunk of a stripe group that is marked lost (16_recovery R401). -/
def State.unrecoverable (s : State) (spa : Nat) : Bool :=
  s.pkg.rebuild.gone.any (s.stripeCovers spa)

/-- Accesses are waiting for a chunk, whose rebuild goes first (16_recovery R399). -/
def State.awaitChunk (s : State) (d : Nat × Nat) : State :=
  s.modPkg (fun p => { p with rebuild := { p.rebuild with
    waitingOn := if p.rebuild.waitingOn.contains d then p.rebuild.waitingOn else p.rebuild.waitingOn ++ [d] } })

/-- The number of no task: one above every 32-bit task id. -/
def noTaskId : Nat := 2 ^ 32

/-! ## The tiles and units of a matrix context (10_matrix R250) -/

def cfgAccBase (w : Word) : Nat := fieldAt w.toNat 9 11
def cfgAccN (w : Word) : Nat := fieldAt w.toNat 20 11
def cfgBBase (w : Word) : Nat := fieldAt w.toNat 31 13
def cfgBN (w : Word) : Nat := fieldAt w.toNat 44 14

/-- The task to whose matrix context an accumulator tile or B-store unit belongs that a window's byte lies in. -/
def State.tileOwner (s : State) (h : Home) : Option Nat :=
  (coresOfCluster h.clusterNum).findSome? (fun c =>
    let m := (s.coreAt c).mat
    let e := FMap.get 0 m.e 16
    let i := if h.win = .acc then h.off / 1024 else h.off / 256
    let inside := if h.win = .acc then cfgAccBase e ≤ i && i < cfgAccBase e + cfgAccN e
      else cfgBBase e ≤ i && i < cfgBBase e + cfgBN e
    if (h.win = .acc ∨ h.win = .bst) ∧ inside then m.owner.map (·.task) else none)

/-! ## The energy meter (17_retire R408), in hundredths of a picojoule -/

/-- The meter is a 64-bit count of pJ, which wraps; a task that has been discarded is settled with its meter as it then stood
(17_retire R409). -/
def State.charge (s : State) (task cpj : Nat) : State :=
  s.modTask task (fun t => if t.discarded then t else { t with meter := (t.meter + cpj) % (100 * 2 ^ 64) })

/-- Cost of one byte at a place: on-chip 1 pJ, HBM4E 13, GDDR-7 40; one fabric hop is charged for each router. -/
def Home.byteCost (h : Home) : Nat :=
  if h.win = .dram then if Config.isHDie h.die || h.die = 15 then 1300 else 4000 else 100

def State.chargeBytes (s : State) (task : Nat) (h : Home) (n : Nat) : State := s.charge task (n * h.byteCost)

/-- A report to the host or to the service processors. -/
def State.note (s : State) (n : HostNote) : State := s.modPkg (fun p => { p with notes := p.notes ++ [n] })

end Machine
end Sys2Proof
end

