-- ==== Sys2Proof/Machine/Float.lean ====
section
/-!
DEFINITION. Number formats and rounding (07_numbers R163 to R172): decoding of the binary and the tapered formats,
exact results, the one rounding of each mode, and the arithmetic of the scalar and vector instructions.
Flags are a number with NV in bit 4, DZ in bit 3, OF in bit 2, UF in bit 1 and NX in bit 0 (R171).
-/
namespace Sys2Proof
namespace Machine

/-! ## Formats and values -/

/-- A binary format: exponent bits and fraction bits (Table 7-1). -/
structure Fmt where
  eb : Nat
  mb : Nat
deriving DecidableEq, Repr

def fp64 : Fmt := ⟨11, 52⟩
def fp32 : Fmt := ⟨8, 23⟩
def fp16 : Fmt := ⟨5, 10⟩
def bf16 : Fmt := ⟨8, 7⟩

/-- Format codes of FP, SFU and FCVT (05_encoding R115, R117). -/
def fmtOf (p : Nat) : Fmt := if p = 0 then fp64 else if p = 1 then fp32 else if p = 2 then fp16 else bf16

def Fmt.width (f : Fmt) : Nat := 1 + f.eb + f.mb
def Fmt.bias (f : Fmt) : Nat := 2 ^ (f.eb - 1) - 1
/-- Exponent of the smallest normal number, and of the last fraction bit of subnormals. -/
def Fmt.emin (f : Fmt) : Int := 1 - (f.bias : Int)
def Fmt.qmin (f : Fmt) : Int := f.emin - f.mb
def Fmt.signBit (f : Fmt) : Nat := 2 ^ (f.eb + f.mb)
def Fmt.inf (f : Fmt) : Nat := (2 ^ f.eb - 1) * 2 ^ f.mb
def Fmt.maxFinite (f : Fmt) : Nat := f.inf - 1
/-- The canonical NaN (R164). -/
def Fmt.nan (f : Fmt) : Nat := f.inf + 2 ^ (f.mb - 1)
/-- The bits of a register that hold a value of the format (R163). -/
def Fmt.bits (f : Fmt) (w : Word) : Nat := w.toNat % 2 ^ f.width
def Fmt.sign (f : Fmt) (x : Nat) : Bool := bitAt x (f.eb + f.mb)
def Fmt.mag (f : Fmt) (x : Nat) : Nat := x % 2 ^ (f.eb + f.mb)
def Fmt.isNan (f : Fmt) (x : Nat) : Bool := f.inf < f.mag x
def Fmt.isSnan (f : Fmt) (x : Nat) : Bool := f.isNan x && !bitAt x (f.mb - 1)
def Fmt.isInf (f : Fmt) (x : Nat) : Bool := f.mag x == f.inf
def Fmt.isZero (f : Fmt) (x : Nat) : Bool := f.mag x == 0
/-- Quieting sets the fraction's top bit (R164). -/
def Fmt.quiet (f : Fmt) (x : Nat) : Nat := if bitAt x (f.mb - 1) then x else x + 2 ^ (f.mb - 1)
def Fmt.withSign (f : Fmt) (neg : Bool) (m : Nat) : Nat := boolNat neg * f.signBit + m

/-- A real number (-1)^neg · (m, or strictly between m and m + 1 when `sticky`) · 2^e. -/
structure Exact where
  neg : Bool
  m : Nat
  e : Int
  sticky : Bool := false
deriving DecidableEq, Repr

/-- A decoded operand. -/
inductive Num where
  | nan
  | inf (neg : Bool)
  | fin (x : Exact)
deriving DecidableEq, Repr

/-- The value of finite bits; subnormals are kept (R164). -/
def Fmt.finite (f : Fmt) (x : Nat) : Exact :=
  let ex := f.mag x / 2 ^ f.mb
  let fr := x % 2 ^ f.mb
  if ex = 0 then ⟨f.sign x, fr, f.qmin, false⟩
  else ⟨f.sign x, fr + 2 ^ f.mb, f.qmin + (ex : Int) - 1, false⟩

def Fmt.num (f : Fmt) (x : Nat) : Num :=
  if f.isNan x then .nan else if f.isInf x then .inf (f.sign x) else .fin (f.finite x)

/-! ## Rounding (R169) -/

/-- Number of bits of `m`. -/
def bitLen (m : Nat) : Nat := if m = 0 then 0 else Nat.log2 m + 1

/-- m · 2^k for an integer k, with what falls off reported: quotient, remainder, divisor. -/
def scaleBits (m : Nat) (k : Int) : Nat × Nat × Nat :=
  if 0 ≤ k then (m * 2 ^ k.toNat, 0, 1) else (m / 2 ^ (-k).toNat, m % 2 ^ (-k).toNat, 2 ^ (-k).toNat)

/-- The significand at quantum 2^q under a rounding mode (Table 5-5), and whether it is inexact. -/
def roundSig (rm : Nat) (x : Exact) (q : Int) : Nat × Bool :=
  let (m, r, d) := scaleBits x.m (x.e - q)
  let inexact := r != 0 || x.sticky
  let above := d < 2 * r || (2 * r == d && x.sticky)
  let tie := 2 * r == d && !x.sticky && d != 1
  let up := match rm with
    | 0 => above || (tie && m % 2 == 1)
    | 2 => inexact && !x.neg
    | 3 => inexact && x.neg
    | 4 => above || tie
    | _ => false
  if rm = 5 then (if inexact && m % 2 == 0 then m + 1 else m, inexact) else (m + boolNat up, inexact)

/-- What overflow gives (R169). -/
def overflowMag (f : Fmt) (rm : Nat) (neg : Bool) : Nat :=
  match rm with
  | 0 => f.inf
  | 4 => f.inf
  | 2 => if neg then f.maxFinite else f.inf
  | 3 => if neg then f.inf else f.maxFinite
  | _ => f.maxFinite

/-- A value strictly between two grid points keeps two guard bits, so that half of a step can be told. -/
def Exact.guarded (x : Exact) : Exact :=
  if x.sticky then { x with m := 4 * x.m + 1, e := x.e - 2 } else x

/-- The one rounding to a format: bits and flags (R169, R171: underflow after rounding and only when inexact). -/
def Fmt.round (f : Fmt) (rm : Nat) (x : Exact) : Nat × Nat :=
  if x.m = 0 ∧ x.sticky = false then (f.withSign x.neg 0, 0)
  else
    let x := x.guarded
    let top : Int := x.e + (bitLen x.m : Int) - 1
    let q := max (top - f.mb) f.qmin
    let (m, inexact) := roundSig rm x q
    let mag := (q - f.qmin).toNat * 2 ^ f.mb + m
    if f.inf ≤ mag then (f.withSign x.neg (overflowMag f rm x.neg), 5)
    else
      let tiny := top < f.emin &&
        !(top == f.emin - 1 && (roundSig rm x (top - f.mb)).1 == 2 ^ (f.mb + 1))
      (f.withSign x.neg mag, if inexact then 1 + 2 * boolNat tiny else 0)

/-! ## Exact arithmetic -/

/-- The signed integer of a value over 2^e. -/
def Exact.over (x : Exact) (e : Int) : Int :=
  let m : Int := (x.m * 2 ^ (x.e - e).toNat : Nat)
  if x.neg then -m else m

def exactOfInt (i : Int) (e : Int) : Exact := ⟨decide (i < 0), i.natAbs, e, false⟩

def Exact.negate (x : Exact) : Exact := { x with neg := !x.neg }

/-- The exact sum; a zero sum has the sign of both zeros, else + or, under RDN, - (R174). -/
def Exact.add (rm : Nat) (x y : Exact) : Exact :=
  let e := min x.e y.e
  let i := x.over e + y.over e
  if i = 0 then ⟨if x.m = 0 ∧ y.m = 0 ∧ x.neg = y.neg then x.neg else rm == 3, 0, e, false⟩ else exactOfInt i e

def Exact.mul (x y : Exact) : Exact := ⟨x.neg != y.neg, x.m * y.m, x.e + y.e, false⟩

/-- The quotient with `guard` further bits; `y` is not zero. -/
def Exact.div (guard : Nat) (x y : Exact) : Exact :=
  let n := x.m * 2 ^ guard
  ⟨x.neg != y.neg, n / y.m, x.e - y.e - guard, n % y.m != 0⟩

/-- The integer square root, bit by bit from bit `i`. -/
def isqrtFrom (n : Nat) : Nat → Nat → Nat
  | 0, r => if (r + 1) * (r + 1) ≤ n then r + 1 else r
  | i + 1, r => isqrtFrom n i (if (r + 2 ^ (i + 1)) * (r + 2 ^ (i + 1)) ≤ n then r + 2 ^ (i + 1) else r)

def isqrt (n : Nat) : Nat := isqrtFrom n (bitLen n / 2) 0

/-- The square root with `guard` further bits. -/
def Exact.sqrt (guard : Nat) (x : Exact) : Exact :=
  let odd := x.e % 2 != 0
  let m := if odd then x.m * 2 else x.m
  let e := if odd then x.e - 1 else x.e
  let n := m * 2 ^ (2 * guard)
  let r := isqrt n
  ⟨false, r, e / 2 - guard, r * r != n⟩

/-- Comparison of magnitudes with sign: -1, 0 or 1 for finite values. -/
def Exact.cmp (x y : Exact) : Int :=
  let e := min x.e y.e
  let a := x.over e
  let b := y.over e
  if a < b then -1 else if a = b then 0 else 1

/-! ## NaN rules (R172) -/

/-- NV when an operand is a signalling NaN. -/
def Fmt.snanFlag (f : Fmt) (ops : List Nat) : Nat := if ops.any f.isSnan then 16 else 0

/-- The first NaN operand quieted, with NV for a signalling one. -/
def Fmt.nanOf (f : Fmt) (ops : List Nat) : Option (Nat × Nat) :=
  (ops.find? f.isNan).map (fun x => (f.quiet x, f.snanFlag ops))

def Fmt.invalid (f : Fmt) : Nat × Nat := (f.nan, 16)

/-! ## Operations on bits: result and flags (Table 7-5) -/

def Fmt.addBits (f : Fmt) (rm a b : Nat) : Nat × Nat :=
  match f.nanOf [a, b] with
  | some r => r
  | none => match f.num a, f.num b with
    | .inf x, .inf y => if x = y then (a, 0) else f.invalid
    | .inf _, _ => (a, 0)
    | _, .inf _ => (b, 0)
    | .fin x, .fin y => f.round rm (x.add rm y)
    | _, _ => f.invalid

def Fmt.flip (f : Fmt) (x : Nat) : Nat := f.withSign (!f.sign x) (f.mag x)

/-- a - b: a NaN keeps its sign (R172). -/
def Fmt.subBits (f : Fmt) (rm a b : Nat) : Nat × Nat := f.addBits rm a (if f.isNan b then b else f.flip b)

def Fmt.mulBits (f : Fmt) (rm a b : Nat) : Nat × Nat :=
  let neg := f.sign a != f.sign b
  match f.nanOf [a, b] with
  | some r => r
  | none =>
    if f.isInf a || f.isInf b then
      if f.isZero a || f.isZero b then f.invalid else (f.withSign neg f.inf, 0)
    else f.round rm ((f.finite a).mul (f.finite b))

def Fmt.divBits (f : Fmt) (rm a b : Nat) : Nat × Nat :=
  let neg := f.sign a != f.sign b
  match f.nanOf [a, b] with
  | some r => r
  | none =>
    if f.isInf a then if f.isInf b then f.invalid else (f.withSign neg f.inf, 0)
    else if f.isInf b then (f.withSign neg 0, 0)
    else if f.isZero b then if f.isZero a then f.invalid else (f.withSign neg f.inf, 8)
    else f.round rm ((f.finite a).div (2 * f.mb + 8) (f.finite b))

def Fmt.sqrtBits (f : Fmt) (rm a : Nat) : Nat × Nat :=
  match f.nanOf [a] with
  | some r => r
  | none =>
    if f.isZero a then (a, 0)
    else if f.sign a then f.invalid
    else if f.isInf a then (a, 0)
    else f.round rm ((f.finite a).sqrt (f.mb + 4))

/-- a·b + c with one rounding; `np` negates the product and `nc` the addend, never a NaN (R175). 0 · inf raises NV
even beside a NaN addend (R172). -/
def Fmt.fmaBits (f : Fmt) (rm : Nat) (np nc : Bool) (a b c : Nat) : Nat × Nat :=
  let bad := (f.isInf a && f.isZero b) || (f.isZero a && f.isInf b)
  match f.nanOf [a, b, c] with
  | some (r, fl) => (r, if bad then 16 else fl)
  | none =>
    if bad then f.invalid
    else
      let pneg := (f.sign a != f.sign b) != np
      let cneg := f.sign c != nc
      if f.isInf a || f.isInf b then
        if f.isInf c && cneg != pneg then f.invalid else (f.withSign pneg f.inf, 0)
      else if f.isInf c then (f.withSign cneg f.inf, 0)
      else
        let p := { (f.finite a).mul (f.finite b) with neg := pneg }
        f.round rm (p.add rm { f.finite c with neg := cneg })

/-- Total order of numbers with -0 below +0, for the minimum and maximum functions. -/
def Fmt.key (f : Fmt) (x : Nat) : Int := if f.sign x then -(f.mag x : Int) - 1 else f.mag x

def Fmt.pick (f : Fmt) (max : Bool) (a b : Nat) : Nat :=
  if max then (if f.key a < f.key b then b else a) else (if f.key b < f.key a then b else a)

/-- minimumNumber and maximumNumber: a NaN gives way to a number. -/
def Fmt.minMaxNum (f : Fmt) (max : Bool) (a b : Nat) : Nat × Nat :=
  let fl := f.snanFlag [a, b]
  if f.isNan a then if f.isNan b then (f.nan, fl) else (b, fl)
  else if f.isNan b then (a, fl)
  else (f.pick max a b, 0)

/-- minimum and maximum: a NaN operand gives a NaN. -/
def Fmt.minMaxNan (f : Fmt) (max : Bool) (a b : Nat) : Nat × Nat :=
  match f.nanOf [a, b] with
  | some r => r
  | none => (f.pick max a b, 0)

/-- Order of two numbers; zeros compare equal. -/
def Fmt.less (f : Fmt) (a b : Nat) : Bool := !(f.isZero a && f.isZero b) && f.key a < f.key b
def Fmt.equal (f : Fmt) (a b : Nat) : Bool := (f.isZero a && f.isZero b) || a == b

def Fmt.eqBits (f : Fmt) (a b : Nat) : Nat × Nat :=
  if f.isNan a || f.isNan b then (0, f.snanFlag [a, b]) else (boolNat (f.equal a b), 0)
def Fmt.ltBits (f : Fmt) (a b : Nat) : Nat × Nat :=
  if f.isNan a || f.isNan b then (0, 16) else (boolNat (f.less a b), 0)
def Fmt.leBits (f : Fmt) (a b : Nat) : Nat × Nat :=
  if f.isNan a || f.isNan b then (0, 16) else (boolNat (f.less a b || f.equal a b), 0)

/-- The class mask (Table 7-5). -/
def Fmt.classMask (f : Fmt) (a : Nat) : Nat :=
  let sub := f.mag a < 2 ^ f.mb
  if f.isNan a then if f.isSnan a then 2 ^ 8 else 2 ^ 9
  else if f.isInf a then if f.sign a then 1 else 2 ^ 7
  else if f.isZero a then if f.sign a then 2 ^ 3 else 2 ^ 4
  else if f.sign a then if sub then 2 ^ 2 else 2
  else if sub then 2 ^ 5 else 2 ^ 6

/-! ## Tapered formats (R165, R166, R170) -/

/-- Leading bits equal to `b`, from bit `i` downward. -/
def runLength (m : Nat) (b : Bool) : Nat → Nat
  | 0 => 0
  | i + 1 => if bitAt m i = b then 1 + runLength m b i else 0

/-- The value of a code of `n` bits, or none for NaN (R165). -/
def decodeTapered (n c : Nat) : Num :=
  let w := n - 1
  let m := c % 2 ^ w
  let s := bitAt c w
  if m = 0 then if s then .nan else .fin ⟨false, 0, 0, false⟩
  else
    let es := if n = 8 then 1 else 0
    let b := bitAt m (w - 1)
    let k := runLength m b w
    let r : Int := if b then (k : Int) - 1 else -(k : Int)
    let rest := w - k - 1
    let low := m % 2 ^ rest
    let nf := rest - es
    let e := if es = 1 ∧ rest ≠ 0 then low / 2 ^ nf else 0
    let fr := low % 2 ^ nf
    .fin ⟨s, 2 ^ nf + fr, ((2 ^ es : Nat) : Int) * r + (e : Int) - (nf : Int), false⟩

/-- Magnitude of a code in units of 2^-12, the smallest T8 magnitude; every T8 and T6 value is a multiple. -/
def taperedUnits (n c : Nat) : Nat :=
  match decodeTapered n c with
  | .fin x => (scaleBits x.m (x.e + 12)).1
  | _ => 0

/-- |x| against k · 2^-13: 0 below, 1 equal, 2 above. -/
def magAgainst (x : Exact) (k : Nat) : Nat :=
  let (m, r, _) := scaleBits x.m (x.e + 13)
  if m < k then 0 else if m = k ∧ r = 0 ∧ x.sticky = false then 1 else 2

/-- Rounding to the tapered grid: to nearest, a tie to the code with bit 0 clear, saturating; bits and flags
(R170). -/
def roundTapered (n : Nat) (x : Exact) : Nat × Nat :=
  let maxc := 2 ^ (n - 1) - 1
  if x.m = 0 ∧ x.sticky = false then (0, 0)
  else if magAgainst x (2 * taperedUnits n maxc) = 2 then (boolNat x.neg * 2 ^ (n - 1) + maxc, 5)
  else
    let c := (List.range maxc).foldl (fun c i =>
      match magAgainst x (taperedUnits n i + taperedUnits n (i + 1)) with
      | 0 => c
      | 1 => if i % 2 = 0 then c else i + 1
      | _ => i + 1) 0
    let exact := magAgainst x (2 * taperedUnits n c) == 1
    if c = 0 then (0, 3) else (boolNat x.neg * 2 ^ (n - 1) + c, if exact then 0 else 1)

/-! ## Conversions (R176) -/

/-- A NaN's bits in another format: the top fraction bits are kept, then quieted (R172). -/
def convertNan (src dst : Fmt) (x : Nat) : Nat :=
  let fr := x % 2 ^ src.mb
  let fr' := if src.mb ≤ dst.mb then fr * 2 ^ (dst.mb - src.mb) else fr / 2 ^ (src.mb - dst.mb)
  dst.quiet (dst.withSign (src.sign x) (dst.inf + fr'))

/-- Float to float. -/
def convertFloat (src dst : Fmt) (rm x : Nat) : Nat × Nat :=
  match src.num x with
  | .nan => (convertNan src dst x, src.snanFlag [x])
  | .inf neg => (dst.withSign neg dst.inf, 0)
  | .fin v => dst.round rm v

/-- Any number to a tapered format of `n` bits; `snan` tells a signalling NaN. -/
def toTapered (n : Nat) (v : Num) (snan : Bool) : Nat × Nat :=
  match v with
  | .nan => (2 ^ (n - 1), if snan then 16 else 0)
  | .inf neg => (boolNat neg * 2 ^ (n - 1) + (2 ^ (n - 1) - 1), 5)
  | .fin x => roundTapered n x

/-- A tapered code to a float (R172: NaN gives the canonical NaN). -/
def fromTapered (n : Nat) (dst : Fmt) (rm c : Nat) : Nat × Nat :=
  match decodeTapered n c with
  | .nan => (dst.nan, 0)
  | .inf neg => (dst.withSign neg dst.inf, 0)
  | .fin x => dst.round rm x

/-- A value rounded to an integer of `w` bits: judged after rounding, saturating with NV (Table 7-6). -/
def toInteger (signed : Bool) (w rm : Nat) (v : Num) : Nat × Nat :=
  let hi : Int := if signed then 2 ^ (w - 1) - 1 else 2 ^ w - 1
  let lo : Int := if signed then -(2 ^ (w - 1)) else 0
  let out := fun (i : Int) => (i % (2 ^ w : Nat)).toNat
  match v with
  | .nan => (out hi, 16)
  | .inf neg => (out (if neg then lo else hi), 16)
  | .fin x =>
    let (m, inexact) := roundSig rm x.guarded 0
    let i : Int := if x.neg then -(m : Int) else m
    if hi < i then (out hi, 16) else if i < lo then (out lo, 16) else (out i, boolNat inexact)

end Machine
end Sys2Proof
end

