-- ==== Sys2Proof/Machine/Operands.lean ====
section
/-!
DEFINITION. Reading operands: the conditions under which an instruction issues and the order in which it traps
(05_encoding R102, R121, R124; 06_scalar R135, R139, R140), signed immediates, and the checks of an access
(04_placement R84, R85; 08_memory_ops R189).
-/
namespace Sys2Proof
namespace Machine

/-! ## Issue conditions -/

/-- A source register with its trap-on-empty bit. -/
abbrev Src := Fin 32 × Bool

/-- Issues the instruction of the current slot: an empty source whose trap bit is set traps with its number (R139),
the lowest field first; an empty blocking source, a pending destination (R140) or, where `head` is set, a
speculative task (01_work R23) makes the turn a bubble; otherwise the instruction acts. -/
def State.gated (s : State) (srcs : List Src) (dst : Fin 32) (head : Bool) (act : State → State) : Out :=
  let x := s.curSlot
  match srcs.find? (fun r => r.2 && !x.ready r.1) with
  | some r => .next (s.trap 0x04 (BitVec.ofNat 64 r.1.val))
  | none =>
    if srcs.any (fun r => !x.ready r.1) || x.pending dst then .next s.bubble
    else if head && s.speculative s.cur then .next s.pause
    else .next (act s)

/-- The tokens of a wait mask, lowest first (05_encoding R121). -/
def maskTokens (m : Nat) : List (Fin 8) := (List.finRange 8).filter (fun t => bitAt m t.val)

def Slot.token (x : Slot) (t : Fin 8) : Token := x.tok[t.val]'t.isLt
def Slot.setToken (x : Slot) (t : Fin 8) (k : Token) : Slot := { x with tok := x.tok.set t.val k t.isLt }

/-- A token on which `WAIT` still waits: commands outstanding and no FAULT (12_copy R299). -/
def Token.waits (k : Token) : Bool := k.count != 0 && k.kind != .fault

/-- tval of a token-fault trap (12_copy R299). -/
def Slot.tokenVal (x : Slot) (t : Fin 8) : Word :=
  BitVec.ofNat 64 ((x.token t).code * 2 ^ 56 + t.val * 2 ^ 48 + (x.token t).addr % 2 ^ 48)

/-- The wait on a mask of tokens, and the trap on the lowest faulted one (R299, 05_encoding R121). -/
def State.waited (s : State) (mask : Nat) (act : State → State) : State :=
  let x := s.curSlot
  let ts := maskTokens mask
  if ts.any (fun t => (x.token t).waits) then s.bubble
  else
    match ts.find? (fun t => (x.token t).kind == .fault) with
    | some t => s.trap 0x18 (x.tokenVal t)
    | none => act s

/-- An E-format instruction: its sources block, then it waits on its mask. -/
def State.gatedE (s : State) (srcs : List (Fin 32)) (dst : Fin 32) (mask : Nat) (head : Bool)
    (act : State → State) : Out :=
  s.gated (srcs.map (fun r => (r, false))) dst head (fun s => s.waited mask act)

/-- An immediate as a register value (06_scalar R145). -/
def simm {n : Nat} (bits : Nat) (i : Fin n) : Word := sext64 i.val bits

/-! ## Translation and rights -/

/-- A precise trap that an access meets: cause and tval. -/
structure TrapInfo where
  cause : Nat
  val : Word
deriving DecidableEq, Repr

def State.trapOf (s : State) (t : TrapInfo) : State := s.trap t.cause t.val

/-- The valid range entries of an address space on a die (R83). -/
def State.rangesOf (s : State) (die asid : Nat) : List Range :=
  (s.dieAt die).ranges.filterMap (fun e => if e.1 / 64 = asid && e.2.valid then some e.2 else none)

/-- The number of the key under which a range's DRAM is encrypted (R88). -/
def Range.cipher (e : Range) : Nat := if e.enc then e.key + 1 else 0
/-- The SPA of a virtual address in a range (R84), with the number of its key. -/
def Range.spa (e : Range) (v : Nat) : Nat := (e.phys * 65536 + (v - e.base * 65536)) % 2 ^ 60 + 2 ^ 64 * e.cipher
/-- The SPA at which a range begins, with the number of its key. -/
def Range.start (e : Range) : Nat := e.phys * 65536 + 2 ^ 64 * e.cipher

/-- Translation of `n` bytes at `v` by a range set: all of them in one entry (R84). -/
def translateIn (es : List Range) (v n : Nat) : Option (Range × Nat) :=
  match es.find? (fun e => e.base ≤ v / 65536 && v / 65536 ≤ e.limit) with
  | some e => if (v + (n - 1)) / 65536 ≤ e.limit then some (e, e.spa v) else none
  | none => none

/-- Translation of `n` bytes at `v` by the tables of a die. -/
def State.translate (s : State) (die asid v n : Nat) : Option (Range × Nat) := translateIn (s.rangesOf die asid) v n

/-- The rights that an access needs (Table 4-7). -/
inductive Need where
  | read | write | both | exec
deriving DecidableEq, Repr

def Need.met (n : Need) (e : Range) : Bool :=
  match n with
  | .read => e.r
  | .write => e.w
  | .both => e.r && e.w
  | .exec => e.x

/-- The checks of a memory access in their order: alignment, translation, rights, and for a write by a scalar or
vector instruction the erasure-coding group (08_memory_ops R189, 04_placement R85). -/
def State.checkAccess (s : State) (k : Nat) (v : Word) (w : Nat) (need : Need) : Except TrapInfo (Range × Nat) :=
  if v.toNat % w ≠ 0 then .error ⟨0x08, v⟩
  else match s.translate (dieOfSlot k) (s.asidOf k) v.toNat w with
    | none => .error ⟨0x09, v⟩
    | some (e, a) =>
      if !need.met e then .error ⟨0x0A, v⟩
      else if (need == .write || need == .both) && e.ecg != 0 then .error ⟨0x0B, v⟩
      else .ok (e, a)

/-- tval of a reply trap: the code above VA[47:0] (08_memory_ops R205). -/
def replyVal (code : Nat) (v : Word) : Word := BitVec.ofNat 64 (code * 2 ^ 56 + v.toNat % 2 ^ 48)

/-- The address space whose range commit holds new translations at present (04_placement R93). -/
def State.translationHeld (s : State) (asid : Nat) : Bool :=
  match s.pkg.commits with
  | c :: _ => c.asid == asid
  | [] => false

/-! ## Delivery to a slot wherever its state is (15_interrupts R369) -/

/-- Changes the slot state of slot index `j` of member `m` of a task: in its bound slot, or in its save area. -/
def State.deliver (s : State) (task j m : Nat) (secondary : Bool) (f : Slot → Slot) : State :=
  let b : Binding := ⟨task, j, m, secondary⟩
  match s.slots.find? (fun e => e.2.bind == some b) with
  | some e => s.modSlot e.1 f
  | none => s.modTask task (fun t =>
      { t with saves := t.saves.map (fun a => if a.j = j ∧ a.m = m then { a with slot := f a.slot } else a) })

/-- The binding of a slot, or none's binding. -/
def Slot.who (x : Slot) : Binding := x.bind.getD { task := 0 }

/-! ## Pending asynchronous traps (15_interrupts R366) -/

/-- The pending trap with the lowest stamp, counted modulo 2^16 from the oldest (R366). -/
def lowestStamp (p : PendingTrap) (ps : List PendingTrap) : PendingTrap :=
  ps.foldl (fun b c =>
    if (c.stamp + 65536 - p.stamp) % 65536 < (b.stamp + 65536 - p.stamp) % 65536 then c else b) p

/-- tjrn of a posted-store trap (08_memory_ops Table 8-9). -/
def tjrnOf (e : Nat) (j : JEntry) (code : Nat) : Word :=
  BitVec.ofNat 64 (j.va.toNat % 2 ^ 48 * 2 ^ 16 + e * 2 ^ 10 + boolNat j.fill * 2 ^ 9 +
    (if j.width = 8 then 0 else if j.width = 4 then 1 else if j.width = 2 then 2 else 3) * 2 ^ 7 + code)

/-- The core whose journal holds a slot's posted stores: for the secondary copy of a checked pair the primary's
(15_interrupts R378). -/
def State.journalCore (s : State) (k : Nat) : Nat :=
  let c := coreOfSlot k
  if (s.slotAt k).bind.any (fun b => b.secondary) then partnerCore c else c

/-- Takes the pending trap (R366). A posted-store refusal, cause 0x21, carries its journal entry's number: the trap
sets tjrn, and its tval is the entry's data (08_memory_ops R208). -/
def State.takePending (s : State) (k : Nat) (p : PendingTrap) : State :=
  let s := s.modSlot k (fun x => { x with pend := x.pend.erase p })
  if p.cause = 0x21 then
    let e := p.tval.toNat
    match FMap.find (s.coreAt (s.journalCore k)).journal e with
    | some j =>
      let code := match j.st with | .refused c => c | .sent => 0
      let s := s.modSlot k (fun x => { x with csr := { x.csr with tjrn := tjrnOf e j code } })
      s.enterTrap k 0x21 true (s.slotAt k).pc j.data
    | none => s
  else s.enterTrap k p.cause true (s.slotAt k).pc p.tval

/-- The slot may use its turn: bound to a task in RUNNING or SPECULATIVE, not stopped, its part not ended, its die not lost (R135). -/
def State.canRun (s : State) (k : Nat) : Bool :=
  let x := s.slotAt k
  let st := (s.slotTask k).st
  x.bind.isSome && !x.stopped && !x.ended && (st == .running || st == .speculative) && !(s.dieAt (dieOfSlot k)).lost

/-- The slot runs and no instruction of it is held: an asynchronous trap may be taken. -/
def State.canTakeTrap (s : State) (k : Nat) : Bool := s.canRun k && (s.slotAt k).hold.isNone

end Machine
end Sys2Proof
end

