-- ==== Sys2Proof/Machine/Flags.lean ====
section
/-!
DEFINITION. The floating-point flags of fcsr: the dynamic rounding mode, the sticky flags, and the trap of an enabled
flag (06_scalar Table 6-10, 07_numbers R169, R171).
-/
namespace Sys2Proof
namespace Machine

/-- The rounding mode of an instruction: code 111 reads fcsr (R169). -/
def State.roundMode (s : State) (r : Nat) : Nat := if r = 7 then s.curSlot.csr.fcsr.toNat % 8 else r

/-- Flags ORed into fcsr[7:3]. -/
def Slot.raise (x : Slot) (fl : Nat) : Slot :=
  { x with csr := { x.csr with fcsr := x.csr.fcsr ||| BitVec.ofNat 64 (fl * 8) } }

/-- The raised flags whose enables in fcsr[12:8] are set. -/
def Slot.enabledFlags (x : Slot) (fl : Nat) : Nat := x.csr.fcsr.toNat / 256 % 32 &&& fl

/-- A floating instruction ends: it ORs its flags into fcsr and then either traps, if one of them is enabled, with
nothing written, or acts and retires, and loses `turns` further turns (R171, R173). -/
def State.floatEnd (s : State) (fl turns : Nat) (act : State → State) : State :=
  let x := s.curSlot
  let s := s.modCur (fun x => x.raise fl)
  if x.enabledFlags fl ≠ 0 then s.trap 0x0D (BitVec.ofNat 64 fl)
  else
    let s := (act s).retire
    if turns = 0 then s else s.modCur (fun x => { x with hold := some (.turns turns) })

/-- The usual end: a value into rd. -/
def State.floatTo (s : State) (d : Fin 32) (turns : Nat) (r : Nat × Nat) : State :=
  s.floatEnd r.2 turns (fun s => s.setReg d (BitVec.ofNat 64 r.1))

end Machine
end Sys2Proof
end

