-- ==== Sys2Proof/Machine/Route.lean ====
section
/-!
DEFINITION. The shape of the fabric, its links, and the route of an access to another package (14_fabric R346, R347, R349,
R352, R354; 04_placement R74, R76).
-/
namespace Sys2Proof
namespace Machine

/-! ## Shape (R346, R347) -/

/-- A coordinate's part: dimensions A 0, B 1, C 2, D 3. -/
def coordPart (x dim : Nat) : Nat :=
  if dim = 0 then x / 2048 % 4 else if dim = 1 then x / 1024 % 2 else if dim = 2 then x / 32 % 32 else x % 32

/-- The neighbour of a package on a port; none where the port is unconnected. Port 2 dim joins upwards, 2 dim + 1
downwards. -/
def State.neighbour (s : State) (x port : Nat) : Option Nat :=
  let dim := port / 2
  let up := port % 2 == 0
  let v := coordPart x dim
  let step := fun (n w : Nat) => if up then (v + 1) % n * w + x - v * w else (v + n - 1) % n * w + x - v * w
  if dim = 0 then if up then (if v = 3 then none else some (x + 2048)) else if v = 0 then none else some (x - 2048)
  else if dim = 1 then if up then (if v = 1 then none else some (x + 1024)) else if v = 0 then none else some (x - 1024)
  else if dim = 2 then if s.fabric.nc ≤ 1 then none else some (step s.fabric.nc 32)
  else if dim = 3 then if s.fabric.nd ≤ 1 then none else some (step s.fabric.nd 1)
  else none

/-- A coordinate inside the fabric's shape. -/
def State.inShape (s : State) (x : Nat) : Bool :=
  x < 8192 && coordPart x 2 < s.fabric.nc && coordPart x 3 < s.fabric.nd

/-- The X-die that carries a link, 0 to 3 of its port. -/
def xdieOfLink (link : Nat) : Nat := if link < 2 then 12 else 13

/-- A VALID entry of the fence list names a coordinate. -/
def State.fencedPkg (s : State) (x : Nat) : Bool :=
  s.fabric.fence.any (fun e => e.2.getLsbD 15 && e.2.toNat % 8192 == x)

/-- A link as it stands now: one whose pause before a training has ended is TRAINING (R358). -/
def State.link (s : State) (n : Nat) : Link :=
  let l := FMap.get {} s.fabric.links n
  if (s.neighbour s.fabric.coord (n / 4)).isNone then { l with st := .notConn }
  else if l.st == .paused && l.trainAt.any (fun t => decide (t ≤ s.now)) then { l with st := .training, trainAt := none }
  else l
def State.modLink (s : State) (n : Nat) (f : Link → Link) : State :=
  s.modFabric (fun b => { b with links := FMap.set n (f (FMap.get {} b.links n)) b.links })
def portLinks (port : Nat) : List Nat := (List.range 4).map (fun i => 4 * port + i)

/-- A link that traffic may count on: UP, PAUSED, or in the training of a link that was UP (R349, R358). -/
def Link.carries (l : Link) : Bool := l.st == .up || l.st == .paused || (l.st == .training && l.kept)

/-! ## Widths (Table 14-3) -/

def liveCount (live : Nat) : Nat := (List.range 4).countP (fun i => bitAt live i)
/-- WIDTH: 0 four lanes, 1 two, 2 one, 3 none. -/
def widthOf (live : Nat) : Nat :=
  let n := liveCount live
  if n = 4 then 0 else if 2 ≤ n then 1 else if n = 1 then 2 else 3
def Link.lanes (l : Link) : Nat := if l.width = 0 then 4 else if l.width = 1 then 2 else if l.width = 2 then 1 else 0
/-- The timeout scale. -/
def Link.scale (l : Link) : Nat := if l.width = 1 then 2 else if l.width = 2 then 4 else 1
/-- The flow-control window of a class on a link, in flits (Table 14-3). -/
def Link.window (l : Link) (bulk : Bool) : Nat := (if bulk then 128 else 32) * l.lanes
/-- The bulk weight (R354). -/
def Link.bulk (l : Link) : Nat := if l.st ≠ .up then 0 else if l.wovr then l.weight else l.lanes
def Link.count (l : Link) : Link := { l with events := min (l.events + 1) 65535 }

/-! ## Routing (R349) -/

def State.usable (s : State) (port : Nat) : Bool :=
  match s.neighbour s.fabric.coord port with
  | none => false
  | some x => (portLinks port).any (fun n => (s.link n).carries) && !s.fencedPkg x

/-- What a router decides. -/
inductive Route where
  | refuse | deliver
  | port (p : Nat)
  | detour (p dim : Nat)
deriving DecidableEq, Repr

/-- The port that leads towards a coordinate in a dimension. -/
def State.towards (s : State) (dst dim : Nat) : Nat :=
  let a := coordPart s.fabric.coord dim
  let b := coordPart dst dim
  let n := if dim = 2 then s.fabric.nc else s.fabric.nd
  let plus := if 2 ≤ dim then (b + n - a) % n ≤ n - (b + n - a) % n else a < b
  2 * dim + if plus then 0 else 1

/-- The detour of a packet that finds no usable port in a dimension. -/
def State.detourOf (s : State) (p : Packet) (dim : Nat) : Route :=
  if s.fabric.detours ≤ p.detours then .refuse
  else
    let b := if coordPart s.fabric.coord 1 = 0 then 2 else 3
    match [(1, b), (0, 0), (0, 1)].find? (fun e => e.1 != dim && s.usable e.2) with
    | some e => .detour e.2 e.1
    | none => .refuse

def State.route (s : State) (p : Packet) (dst : Nat) : Route :=
  if !s.inShape dst || s.fencedPkg dst then .refuse
  else match p.order.find? (fun dim => coordPart s.fabric.coord dim != coordPart dst dim) with
    | none => .deliver
    | some dim =>
      let port := s.towards dst dim
      if s.usable port then .port port else s.detourOf p dim

/-- The package to which an access goes: straight to the target of a redirect entry (04_placement R74, 16_recovery
R398). -/
def State.target (s : State) (p : Packet) : Nat :=
  if p.remote then p.dst
  else match s.redirect p.dst p.die with
    | some r => r.tpkg
    | none =>
      match (s.fabric.redirects.map (·.2)).find? (fun r => r.valid && r.sdie == 15 && r.spkg == p.dst) with
      | some r => r.tpkg
      | none => p.dst

/-! ## Accesses that another package answers -/

/-- The package to which an SPA outside this one leads, and whether the die map of this package names it (04_placement R73,
R76). -/
def State.spaDst (s : State) (a : Nat) : Nat × Bool :=
  let away := spaFabric a && spaPkg a != s.fabric.coord
  (if away then spaPkg a else (s.mapAt (spaDie a)).pkg, !away)

/-- A packet for an SPA, not yet routed. -/
def State.packetFor (s : State) (a : Nat) (x : Load) : Packet :=
  { id := 0, load := x, dst := (s.spaDst a).1, die := spaDie a, remote := (s.spaDst a).2 }

/-- This package's router refuses a packet for an SPA (R349). -/
def State.noPath (s : State) (a : Nat) : Bool := s.route (s.packetFor a (.msg 0)) (s.target (s.packetFor a (.msg 0))) == .refuse

/-- The code with which an access that is no packet here is answered by another package: NO-PACKAGE where the router refuses
it, else what comes back, which is open and may be that its time has run out (log entry 117). -/
def State.outsideCode (s : State) (a tag : Nat) : Nat :=
  if s.noPath a then 6 else Config.freeCode s.freeCtr tag % 8

/-- The code with which another package, or a router on the way, answers a packet: its timer gives TIMEOUT, and nothing else
does (14_fabric R355, R356). -/
def State.packetCode (s : State) (a tag : Nat) : Nat :=
  if s.noPath a then 6 else Config.freeCode s.freeCtr tag % 7

end Machine
end Sys2Proof
end

