-- ==== Sys2Proof/Machine/Line.lean ====
section
/-!
DEFINITION. Lines of the L1 data cache and the writing home of their dirty bytes (08_memory_ops R193, R194, R438); sending a
message, and the free entries of the posted-store journal (R187, R207).
-/
namespace Sys2Proof
namespace Machine

/-! ## Lines -/

/-- The set of a line: SPA[11:5] (R193). -/
def dset (line : Nat) : Nat := line % 128

/-- Lines are told apart by their SPA alone: a line keeps the key of the range through which it was filled. -/
def sameLine (a b : Nat) : Bool := lineBits a == lineBits b

def Core.findL (c : Core) (line : Nat) : Option L1Line := c.l1.find? (fun l => sameLine l.line line)

/-- A line used last stands first. -/
def Core.touchL (c : Core) (line : Nat) : Core :=
  match c.findL line with
  | some l => { c with l1 := l :: c.l1.filter (fun l => !sameLine l.line line) }
  | none => c

def Core.modL (c : Core) (line : Nat) (f : L1Line → L1Line) : Core :=
  { c with l1 := c.l1.map (fun l => if sameLine l.line line then f l else l) }

def Core.dropL (c : Core) (line : Nat) : Core := { c with l1 := c.l1.filter (fun l => !sameLine l.line line) }

def L1Line.isDirty (l : L1Line) : Bool := l.dirty.any id

/-- Bytes `o` and on of a list replaced. -/
def splice (l : List Byte) (o : Nat) (bs : List Byte) : List Byte := l.take o ++ bs ++ l.drop (o + bs.length)
def spliceMask (l : List Bool) (o n : Nat) : List Bool := l.take o ++ List.replicate n true ++ l.drop (o + n)

/-- A store merged into a line: its bytes become dirty. -/
def L1Line.merge (l : L1Line) (o : Nat) (bs : List Byte) : L1Line :=
  { l with bytes := splice l.bytes o bs, dirty := spliceMask l.dirty o bs.length }

/-! ## Writing bytes home -/

/-- The home of a line takes its dirty bytes, or refuses with a code of Table 8-7. Full/empty bits stay (R194). Bytes that
reach a die whose loss is not yet decided come back with DIE-FENCED, and stay where they are (04_placement R75). -/
def State.writeHome (s : State) (line : Nat) (bytes : List Byte) (mask : List Bool) : State × Nat :=
  let h := s.home (line * 32)
  if h.outside then (s, s.outsideCode (line * 32) line)
  else if s.dieCode h.die ≠ 0 then (s, s.dieCode h.die)
  else if (s.dieAt h.die).lost then (s, 2)
  else ((s.under h 32).storeMask h.key bytes mask, 0)

/-- Write-backs of a line that are not yet acknowledged. -/
def State.wbInFlight (s : State) (core line : Nat) : Bool := s.wbs.any (fun w => w.core == core && sameLine w.line line)

/-- A packet for an SPA outside this package goes to the router (14_fabric R349). -/
def State.sendPacket (s : State) (q : Packet) : State :=
  let p := s.fresh
  (s.bumpId.modFabric (fun f => { f with packets := f.packets ++ [{ q with id := p }] })).push (.routerHop p)

/-- A write-back leaves the core: the line is clean, its home takes the bytes, and the reply is on its way. One to another
package is a packet of the fabric (14_fabric R351). -/
def State.startWriteBack (s : State) (core line : Nat) (slot : Option Nat) : State :=
  match (s.coreAt core).findL line with
  | some l =>
    if !l.isDirty then s
    else
      let id := s.fresh
      let s := s.bumpId.modCore core (fun c =>
        c.modL line (fun l => { l with dirty := l.dirty.map (fun _ => false), refused := false }))
      let r := s.writeHome l.line l.bytes l.dirty
      let s := match slot with
        | some k => r.1.chargeBytes (s.slotTask k).id (s.home (line * 32)) (l.dirty.countP (fun b => b))
        | none => r.1
      let w : WriteBack := { id := id, core := core, line := l.line, bytes := l.bytes, mask := l.dirty, slot := slot }
      let s := { s with wbs := s.wbs ++ [w] }
      if (s.home (line * 32)).outside then s.sendPacket { s.packetFor (line * 32) (.wb id) with flow := core % 512 }
      else s.push (.writebackReply id (BitVec.ofNat 7 r.2))
  | none => s

/-- A line written back in one step: on success it is clean, on refusal it stays dirty and is tried again (R438). -/
def State.flushLine (s : State) (core line : Nat) : State :=
  match (s.coreAt core).findL line with
  | some l =>
    if !l.isDirty then s
    else
      let r := s.writeHome l.line l.bytes l.dirty
      if r.2 = 0 then
        r.1.modCore core (fun c => c.modL line (fun l => { l with dirty := l.dirty.map (fun _ => false), refused := false }))
      else
        (s.modCore core (fun c => c.modL line (fun l => { l with refused := true }))).after (acNs 4096) (.writebackRetry core)
  | none => s

/-- Every dirty line of a core that a test names is written back. -/
def State.flushWhere (s : State) (core : Nat) (p : Nat → Bool) : State :=
  ((s.coreAt core).l1.filter (fun l => l.isDirty && p l.line)).foldl (fun s l => s.flushLine core l.line) s

/-- The cores on which a task has slots, has been placed, or was saved, and their partners for a checked pair. -/
def State.coresOf (s : State) (id : Nat) : List Nat :=
  let t := s.taskAt id
  let cs := (s.slotsOf id).map coreOfSlot ++ t.cores.map (·.2) ++ t.saves.map (·.core)
  (cs ++ (if t.paired then cs.map partnerCore else [])).eraseDups

/-- The dirty lines of the cores of a task go home as it is taken back, so that nothing that the attempt has written reaches
memory after what follows it (01_work R12, R19). -/
def State.flushTask (s : State) (id : Nat) : State :=
  ((s.coresOf id).filter (fun c => !(s.dieAt (dieOfCore c)).lost)).foldl
    (fun s c => s.flushWhere c (fun _ => true)) s

/-- Clean lines of a core that a test names leave its L1, but for those whose write-back is under way: a refusal makes their
bytes dirty again (R438). -/
def State.dropClean (s : State) (core : Nat) (p : Nat → Bool) : State :=
  s.modCore core (fun c => { c with l1 := c.l1.filter (fun l => l.isDirty || s.wbInFlight core l.line || !p l.line) })

/-- A line whose bytes from `spa` on, `n` of them, are replaced at their home: its copy follows and is clean there. -/
def L1Line.freshen (l : L1Line) (spa n : Nat) (rd : Nat → Byte) : L1Line :=
  let at' := fun i => lineBits l.line * 32 + i
  let inside := fun i => spaBits spa ≤ at' i && at' i < spaBits spa + n
  { l with
    bytes := l.bytes.mapIdx (fun i b => if inside i then rd (at' i) else b),
    dirty := l.dirty.mapIdx (fun i d => d && !inside i) }

/-- A line whose bytes follow those at its home, but for its dirty ones and those whose write-back is under way. -/
def L1Line.refresh (l : L1Line) (busy : Nat → Bool) (rd : Nat → Byte) : L1Line :=
  { l with bytes := l.bytes.mapIdx (fun i b => if l.dirty.getD i false || busy i then b else rd i) }

/-- A core's copy of a line after an access of the core to it has been performed at the home; a copy of a line homed in
another package leaves the L1 instead. -/
def State.refreshLine (s : State) (core line : Nat) : State :=
  match (s.coreAt core).findL line with
  | none => s
  | some l =>
    let h := s.home (l.line * 32)
    if h.outside then if l.isDirty || s.wbInFlight core line then s else s.modCore core (fun c => c.dropL line)
    else
      let busy := fun i => s.wbs.any (fun w => w.core == core && sameLine w.line line && w.mask.getD i false)
      s.modCore core (fun c => c.modL line (fun l => l.refresh busy (fun i => Memory.read (s.under h 32).mem (h.key + i))))

/-- The same for the lines of `n` bytes at an SPA. -/
def State.refreshLines (s : State) (core spa n : Nat) : State :=
  [spa / 32, (spa + n - 1) / 32].eraseDups.foldl (fun s l => s.refreshLine core l) s

/-- Bytes that a restore has written (16_recovery R390) stand in every L1 as they stand at their home, and no write-back
that is refused later makes them dirty again. -/
def State.freshenLines (s : State) (spa n : Nat) : State :=
  let h := s.home spa
  let rd := fun a => Memory.read (s.under h n).mem (h.key + a - spaBits spa)
  { s with
    cores := s.cores.map (fun c => (c.1, { c.2 with l1 := c.2.l1.map (fun l => l.freshen spa n rd) })),
    wbs := s.wbs.map (fun w => { w with mask := w.mask.mapIdx (fun i b =>
      b && !(spaBits spa ≤ lineBits w.line * 32 + i && lineBits w.line * 32 + i < spaBits spa + n)) }) }

/-! ## Sending a message to a home -/

/-- The access writes its word. -/
def MsgKind.writes (x : MsgKind) : Bool :=
  match x with
  | .write | .storeFe _ | .amo _ _ | .amoFadd _ | .xclr | .xacc _ | .relFill => true
  | _ => false

/-- Sends a message: out of the package as a packet of the fabric, else to its home (R187). -/
def State.send (s : State) (m : Msg) : State :=
  let id := s.fresh
  let h := s.home m.spa
  let s := if m.kind.writes then (List.range ((m.width + 31) / 32)).foldl (fun s i => s.tagWrite m.slot (m.spa + 32 * i)) s else s
  let s := { s.bumpId with msgs := s.msgs ++ [{ m with id := id }] }
  if h.outside then
    s.sendPacket { s.packetFor m.spa (.msg id) with flow := m.core % 512 }
  else if m.kind = .write ∧ h.win = .reg then s.push (.regWindowWrite id)
  else if m.kind = .write ∧ h.win = .tbl then s.push (.tblWindowWrite id)
  else s.push (.homeAccess id)

/-! ## Free entries of the journal (R207) -/

/-- The lowest free entry of a core's journal. -/
def Core.freeEntry (c : Core) : Option Nat := (List.range 64).find? (fun e => (FMap.find c.journal e).isNone)

/-- An entry for a store of a slot: none while the journal is full or the slot has 16 entries (R207, 15_interrupts
R370). -/
def State.journalSlot (s : State) (k : Nat) : Option Nat :=
  let c := s.coreAt (coreOfSlot k)
  if 16 ≤ (c.journal.filter (fun e => e.2.slot == k)).length then none else c.freeEntry

end Machine
end Sys2Proof
end

