-- ==== Sys2Proof/Machine/Fetch.lean ====
section
/-!
DEFINITION. Instruction fetch (05_encoding R122, R123, R125): the checks of pc and of a branch target, the
instruction cache and its line fills, and the merging of a cluster's line fills (08_memory_ops R195).
-/
namespace Sys2Proof
namespace Machine

/-! ## The merge table of a mesh port -/

/-- A line fill asked of the cluster's memory port: it joins the window of its 256-byte block, opens one, or is
issued alone at once when all 8 entries are open; a block whose 8 lines have joined is issued at once, and its window with
its timer ends (R195). -/
def State.askFill (s : State) (cluster line : Nat) (e : Event) : State :=
  let q := s.clusterAt cluster
  let block := line / 8
  match q.merges.find? (fun m => m.block == block) with
  | some m =>
    if m.lines.contains (line, e) then s
    else
      let lines := m.lines ++ [(line, e)]
      if 8 ≤ (lines.map (·.1)).eraseDups.length then
        let s := { s with
          timers := s.timers.filter (fun (t : Timer) => t.ev != Event.mergeWindowExpiry cluster block),
          agenda := s.agenda.filter (fun e => e != Event.mergeWindowExpiry cluster block) }
        (s.modCluster cluster (fun q => { q with merges := q.merges.filter (fun m => m.block != block) })).pushAll
          (lines.map (·.2))
      else s.modCluster cluster (fun q =>
        { q with merges := q.merges.map (fun m => if m.block = block then { m with lines := lines } else m) })
  | none =>
    if 8 ≤ q.merges.length then s.push e
    else (s.modCluster cluster (fun q => { q with merges := q.merges ++ [⟨block, [(line, e)]⟩] })).after (acNs 64)
      (.mergeWindowExpiry cluster block)

/-- The window of a block ends: its fills are made (R195). -/
def execMergeWindowExpiry (cluster block : Nat) (s : State) : Out :=
  match (s.clusterAt cluster).merges.find? (fun m => m.block == block) with
  | some m => .next ((s.modCluster cluster (fun q =>
      { q with merges := q.merges.filter (fun m => m.block != block) })).pushAll (m.lines.map (·.2)))
  | none => .next s

/-! ## Checks of pc and of targets -/

/-- The code range of the slot's task (R122). -/
def Task.inCode (t : Task) (v : Nat) : Bool :=
  t.decl.codebase ≤ v && v < t.decl.codebase + 256 * t.decl.codelen

/-- The checks of R122 on an address before its line is read: a translation without fault, X rights, the code range.
The answer is the SPA. -/
def State.fetchSpa (s : State) (k : Nat) (v : Word) : Option Nat :=
  let t := s.slotTask k
  if !t.inCode v.toNat then none
  else match s.translate (dieOfSlot k) t.asid v.toNat 4 with
    | some (e, a) => if e.x then some a else none
    | none => none

/-- The check of a branch target: misaligned, cause 0x03; failing R122, cause 0x02; the tval is the target (R123). -/
def State.checkTarget (s : State) (k : Nat) (v : Word) : Option TrapInfo :=
  if v.toNat % 4 ≠ 0 then some ⟨0x03, v⟩
  else if (s.fetchSpa k v).isNone then some ⟨0x02, v⟩
  else none

/-! ## The instruction cache -/

/-- The set of a line: VA[11:5] (R125). -/
def iset (line : Nat) : Nat := line % 128

def Core.findI (c : Core) (asid line : Nat) : Option ILine :=
  c.icache.find? (fun l => l.asid == asid && l.line == line)

/-- A line used last stands first. -/
def Core.touchI (c : Core) (asid line : Nat) : Core :=
  match c.findI asid line with
  | some l => { c with icache := l :: c.icache.filter (fun l => !(l.asid == asid && l.line == line)) }
  | none => c

/-- A line placed in its set: a present copy is replaced and keeps its pin; else, in a full set, the least recently
used unpinned line leaves (R125). -/
def Core.putI (c : Core) (asid line : Nat) (ws : List Nat) : Core :=
  let rest := c.icache.filter (fun l => !(l.asid == asid && l.line == line))
  let pin := (c.findI asid line).bind (·.pin)
  let mates := rest.filter (fun l => iset l.line == iset line)
  let victim := if mates.length < 4 then none else (mates.filter (fun l => l.pin.isNone)).getLast?
  let rest := match victim with
    | some v => rest.filter (fun l => !(l.asid == v.asid && l.line == v.line))
    | none => rest
  { c with icache := { asid := asid, line := line, words := ws, pin := pin } :: rest }

/-- The eight words of a line at an SPA: a code of Table 8-7, or the words. Another package answers with free
values; a word of a chunk that is marked lost is uncorrectable (16_recovery R401). -/
def State.readLine (s : State) (spa : Nat) : Nat × List Byte :=
  let a := spa / 32 * 32
  let h := s.home a
  if h.outside then
    (s.outsideCode a a, (List.range 4).flatMap (fun i => leBytes 8 (Config.freeWord s.freeCtr (a + 8 * i)).toNat))
  else if s.dieCode h.die ≠ 0 then (s.dieCode h.die, [])
  else if s.unrecoverable a || s.isBad h.key 32 then (5, [])
  else (0, Memory.readList (s.under h 32).mem h.key 32)

def wordsOf : List Byte → List Nat
  | a :: b :: c :: d :: r => leNat [a, b, c, d] :: wordsOf r
  | _ => []

/-- The slots of a core that wait at pc for an instruction line. -/
def State.fetchers (s : State) (core asid line : Nat) : List Nat :=
  (slotsOfCore core).filter (fun k =>
    (s.slotAt k).bind.isSome && s.asidOf k == asid && (s.slotAt k).pc.toNat / 32 == line)

/-- An instruction line fill or refetch arrives (R125, R126). A fill that meets a translation without X rights, a
place that is not DRAM, or a negative reply is dropped; for the line of a slot's pc the slot takes the trap of
R122 at its next turn, when it fetches again. A line of a chunk that awaits its rebuild is asked for again by the slots that
wait for it (16_recovery R399). -/
def execIcacheFill (core asid line : Nat) (s : State) : Out :=
  let v := line * 32
  let done := s.modCore core (fun c =>
    { c with icache := c.icache.map (fun l => if l.asid = asid ∧ l.line = line then { l with refetch := [] } else l) })
  match s.translate (dieOfCore core) asid v 32 with
  | some (e, a) =>
    let h := s.home a
    let r := s.readLine a
    if !e.x || h.win != .dram then .next done
    else match s.lostChunk a with
    | some d =>
      let s := s.awaitChunk d
      .next (if ((s.coreAt core).findI asid line).isSome then s.after (acNs 4096) (.icacheFill core asid line) else s)
    | none =>
    if s.lostHome h then
      .next (if ((s.coreAt core).findI asid line).isSome then s.after (acNs 4096) (.icacheFill core asid line) else s)
    else if r.1 != 0 then .next done
    else
      let t := ((s.fetchers core asid line).head?.map (fun k => (s.slotTask k).id)).getD noTaskId
      .next ((done.modCore core (fun c => c.putI asid line (wordsOf r.2))).chargeBytes t h 32)
  | none => .next done

/-- What the fetch of a slot's turn gives: a trap, a wait for the line, or the word (R122). -/
inductive Fetched where
  | trap (cause : Nat) (val : Word)
  | miss
  | word (w : Nat)
deriving DecidableEq, Repr

/-- The fetch at pc. A misaligned pc can come only from tvec and raises cause 0x01 with tval the address
(15_interrupts R363). A line whose refetch the slot has posted is waited for (R126). -/
def State.fetch (s : State) (k : Nat) : Fetched :=
  let x := s.slotAt k
  let v := x.pc
  if v.toNat % 4 ≠ 0 then .trap 0x01 v
  else match s.fetchSpa k v with
    | none => .trap 0x02 v
    | some a =>
      if (s.home a).win ≠ .dram then .trap 0x0C v
      else match (s.coreAt (coreOfSlot k)).findI (s.asidOf k) (v.toNat / 32) with
        | some l => if l.refetch.contains k then .miss else .word (l.words.getD (v.toNat / 4 % 8) 0)
        | none =>
          let r := s.readLine a
          if (s.lostChunk a).isSome || s.lostHome (s.home a) then .miss
          else if r.1 ≠ 0 then .trap 0x0E (replyVal r.1 v) else .miss

/-- A miss asks for the line, and for the next one when it is absent and lies in the code range (R125). -/
def State.missFetch (s : State) (k : Nat) : State :=
  let c := coreOfSlot k
  let asid := s.asidOf k
  let line := (s.slotAt k).pc.toNat / 32
  let ask := fun (s : State) (l : Nat) =>
    if (s.coreAt c).findI asid l |>.isSome then s
    else match s.translate (dieOfCore c) asid (l * 32) 32 with
      | some (_, a) => s.askFill (clusterOfCore c) (a / 32) (.icacheFill c asid l)
      | none => s
  let s := ask s line
  if (s.slotTask k).inCode ((line + 1) * 32) then ask s (line + 1) else s

end Machine
end Sys2Proof
end

