-- ==== Sys2Proof/Machine/Turn.lean ====
section
/-!
DEFINITION. The turn of a slot before anything issues, and the move to the next turn (06_scalar R134 to R137,
R141, R155; 15_interrupts R366).
-/
namespace Sys2Proof
namespace Machine

/-- What a turn leads to: it is used up, or an instruction issues, or a word that is no instruction. -/
inductive Turn where
  | used (s : State)
  | issue (i : Instr) (s : State)
  | illegal (w : Nat) (s : State)

/-- The turn of the current slot (R135, R366). -/
def State.turn (s : State) : Turn :=
  let k := s.cur
  let x := s.curSlot
  if (s.dieAt (dieOfSlot k)).lost then .used s
  else if !s.canRun k && !(x.reissue && x.hold.isNone && x.bind.isSome && !x.ended) then .used (if x.bind.isSome then s.bubble else s)
  else match x.hold with
    | some (.turns n) =>
      .used (s.modCur (fun x => { x.bubble with hold := if n ≤ 1 then none else some (.turns (n - 1)) }))
    | some .halt =>
      .used (s.modCur (fun x => if x.wake then { x.finish.bubble with wake := false } else x.bubble))
    | some _ => .used s.bubble
    | none =>
      match if x.intrap || x.reissue then [] else x.pend with
        | p :: ps => .used ((s.takePending k (lowestStamp p ps)).modSlot k (fun x => { x.bubble with yielding := x.yielding - 1 }))
        | [] =>
          if x.yielding ≠ 0 then .used (s.modCur (fun x => { x.bubble with yielding := x.yielding - 1 }))
          else if x.blocked && s.speculative k then .used s.pause
          else if s.translationHeld (s.asidOf k) then .used s.bubble
          else match s.fetch k with
            | .trap c v => .used ((s.modCur Slot.bubble).enterTrap k c false x.pc v)
            | .miss => .used (s.bubble.missFetch k)
            | .word w =>
              let s' := s.modCore (coreOfSlot k) (fun c => c.touchI (s.asidOf k) (x.pc.toNat / 32))
              match decode w with
              | some i => .issue i s'
              | none => .illegal w s'

/-- The compute dies that are placed and in service. -/
def State.liveDies (s : State) : List Nat :=
  (List.range 12).filter (fun d => (s.mapAt d).valid && !(s.mapAt d).fenced)

/-- The balancing interval of a die; a value that is no power of two from 1,024 to 65,536 acts as 4,096 (R96). -/
def Die.interval (d : Die) : Nat :=
  if [1024, 2048, 4096, 8192, 16384, 32768, 65536].contains d.balint.toNat then d.balint.toNat else 4096

/-- The rotation is over: 16 ac pass, timers fall due, and the arbiters of the dies have their boundary (R134). -/
def State.wrap (s : State) : State :=
  let cycle := s.cycle + 16
  let now := acNs cycle
  let due := s.timers.filter (fun t => t.due ≤ now)
  let bal := s.liveDies.filter (fun d => cycle % (s.dieAt d).interval = 0)
  { s with
    cycle := cycle, now := now, timers := s.timers.filter (fun t => now < t.due),
    agenda := s.agenda ++ due.map (·.ev) ++ s.liveDies.map (fun d => .rotationBoundary d) ++
      bal.map (fun d => .balancingInterval d) }

/-- The watchdog limit of a slot in turns: the WDOG of the innermost domain on the chain that sets one, else the rind's
16,384 units of 65,536 ac (16_recovery R393). -/
def State.watchLimit (s : State) (k : Nat) : Nat :=
  let t := s.slotTask k
  let w := (t.chain.findSome? (fun id => (s.findDomain t.job id).bind (fun d => if d.wdog = 0 then none else some d.wdog))).getD 16384
  w * 4096

/-- A slot that has lost its limit of turns fires the watchdog. -/
def State.watch (s : State) : State :=
  let x := s.curSlot
  if x.bind.isSome && !x.ended && s.watchLimit s.cur ≤ x.idle then
    (s.modCur (fun x => { x with idle := 0 })).push (.watchdogFire s.cur)
  else s

/-- The turn ends: the meter counts it (17_retire R408), the watchdog is compared, and the next bound slot in order of
core and slot has its turn; after the last one the rotation starts again. -/
def State.advance (s : State) : State :=
  let s := s.watch
  let s := match (s.slotAt s.cur).bind with
    | some b => s.charge b.task 2000
    | none => s
  let s := { s with freeCtr := s.freeCtr + 1 }
  let bound := (s.slots.filter (fun e => e.2.bind.isSome)).map (·.1)
  match bound.find? (fun k => s.cur < k) with
  | some k => { s with cur := k }
  | none => { s.wrap with cur := bound.head?.getD 0 }

/-- The only event that a package without power takes (17_retire R412). -/
def isPowerGood (e : Event) : Bool :=
  match e with
  | .powerGood .. => true
  | _ => false

/-! ## A slot placed to run one word -/

/-- Where `placeSlot` lets its slot run: address space 0, code at 0x10_0000, mapped to the start of die 0's DRAM. -/
def placedPc : Nat := 0x100000
def placedTask : Task :=
  { id := 0, st := .running,
    decl := { codebase := placedPc, codelen := 1, entry := placedPc, slots := 1, gang := 1 } }
def placedRange : Range := { valid := true, r := true, w := true, x := true, base := 0x10, limit := 0x10, phys := 0 }

/-- Slot 0 of core 0 of die 0 bound to a running task, and its turn next. -/
def State.placeSlot (s : State) : State :=
  let s := s.setSlot 0 { bind := some { task := 0 }, pc := BitVec.ofNat 64 placedPc }
  let s := s.modDie 0 (fun d =>
    { d with ranges := FMap.set 0 placedRange (d.ranges.filter (fun e => e.1 / 64 != 0)) })
  let s := s.modPkg (fun p => { p with poweredOff := false, commits := [] })
  { s with tasks := placedTask :: s.tasks.filter (fun t => t.id != 0), cur := 0, agenda := [] }

/-- The word at the placed pc, in memory and in the instruction cache. -/
def State.placeWord (s : State) (w : Nat) : State :=
  (s.store 0 (wordBytes w)).modCore 0 (fun c =>
    { c with icache := { asid := 0, line := placedPc / 32, words := [w] } ::
        c.icache.filter (fun l => !(l.asid == 0 && l.line == placedPc / 32)) })

end Machine
end Sys2Proof
end

