-- ==== Sys2Proof/Machine/Contain.lean ====
section
/-!
DEFINITION. Containment (01_work R19, R25; 16_recovery R388 to R394, R402): a task stopped and taken back, its
waits withdrawn (08_memory_ops R203) and its commands discarded (12_copy R330), the rollback of a domain, the
parking of a job, and what an uncorrectable error leads to.
-/
namespace Sys2Proof
namespace Machine

/-! ## Leaving a core (17_retire R415) -/

/-- What is resident on a core is a task's alone: no slot, work-list entry, saved area or matrix context of another one. -/
def State.alone (s : State) (id c : Nat) : Bool :=
  (slotsOfCore c).all (fun k => (s.slotAt k).bind.all (fun b => b.task == id)) &&
    (s.coreAt c).work.all (fun w => w.1 == id) && (s.coreAt c).mat.owner.all (fun b => b.task == id) &&
    s.tasks.all (fun u => u.id == id || !((u.st == .preempted || u.st == .swapped) && u.saves.any (fun a => a.core == c)))

/-- The cores on which a task is resident. -/
def State.coresHeld (s : State) (id : Nat) : List Nat :=
  ((s.slotsOf id).map coreOfSlot ++ (s.taskAt id).saves.map (·.core) ++
    (s.cores.filter (fun c => c.2.work.any (fun w => w.1 == id) || c.2.mat.owner.any (fun b => b.task == id))).map (·.1)).eraseDups

/-- A task leaves: of the cores where nothing else is resident its partition and job are the last ones. -/
def State.markLeaving (s : State) (id : Nat) : State :=
  match s.findTask id with
  | none => s
  | some t => ((s.coresHeld id).filter (s.alone id)).foldl (fun s c =>
      s.modCore c (fun x => { x with lastPart := some t.part, lastJob := some t.job })) s

/-! ## Taking a task back -/

/-- A task with its slots, waits, commands, matrix context and engine requests taken back. Entries of joins are
not discarded (13_consistency R339); posted stores on their way still settle, and REFUSED entries are freed. The dirty
lines of its cores go home first (log entry 20). -/
def State.strip (s : State) (id : Nat) : State :=
  let s := (s.flushTask id).markLeaving id
  let ks := s.slotsOf id
  let clearCore := fun (c : Core) =>
    { c with
      work := c.work.filter (fun e => e.1 != id),
      spec := c.spec.filter (fun l => l.task != id),
      readTags := c.readTags.filter (fun e => e.1 != id),
      journal := c.journal.filter (fun e => !(e.2.who.task == id && e.2.st != .sent)),
      pairWith := if c.pairWith = some id then none else c.pairWith,
      items := if c.pairWith = some id then [] else c.items,
      queues := c.queues.map (fun e => (e.1, e.2.filter (fun q =>
        match q with
        | .cmd n => !(s.cmds.any (fun x => x.id == n && x.who.task == id))
        | .join _ => true))),
      tags := if c.mat.owner.any (fun b => b.task == id) then [] else c.tags,
      mat := if c.mat.owner.any (fun b => b.task == id) then
          { c.mat.free with queue := c.mat.queue.filter (fun x => x.join.isSome), run := none }
        else c.mat }
  let next : State :=
    { s.unquietDies (ks.map dieOfSlot) with
      slots := s.slots.map (fun e => if ks.contains e.1 then (e.1, { owner := e.2.owner }) else e),
      cores := s.cores.map (fun e => (e.1, clearCore e.2)),
      clusters := s.clusters.map (fun e => (e.1, { e.2 with
        exchanges := e.2.exchanges.map (fun x => { x with
          joined := x.joined.map (fun j => if j.who.task = id then { j with reg := 0 } else j) }),
        xfm := e.2.xfm.filter (fun r => !((FMap.find e.2.tickets r.entry).any (fun t => t.who.task == id))),
        tickets := e.2.tickets.filter (fun t => t.2.who.task != id),
        gvWait := e.2.gvWait.filter (fun k => !ks.contains k.1) })),
      msgs := s.msgs.filter (fun m => m.who.task != id || m.journal.isSome),
      cmds := s.cmds.filter (fun x => x.who.task != id),
      tasks := s.tasks.map (fun t => { t with staging := t.staging.filter (fun g =>
        !(g.2.item.any (fun i => s.cmds.any (fun c => c.id == i.1 && c.who.task == id)))) }),
      groups := s.groups.filter (fun g => g.task != id),
      pkg := { s.pkg with
        triggers := s.pkg.triggers.filter (fun t => t.2.2 != id), slices := s.pkg.slices.filter (fun x => x.task != id) } }
  let queues := s.cores.flatMap (fun c => c.2.queues.map (fun q => Event.engineBoxIssue c.1 q.1))
  let moved := if s.cmds.any (fun x => x.who.task == id) then queues else []
  let ports := (s.clusters.filter (fun e => e.2.tickets.any (fun t => t.2.who.task == id))).map (fun e => Event.xfmCrc e.1)
  let gvs := ks.filter (fun k => match (s.slotAt k).hold with
    | some (.gv ..) => true
    | _ => false)
  let grants := (gvs.map clusterOfSlot).eraseDups.map Event.gvQueueGrant
  next.pushAll (moved ++ ports ++ grants)

/-- The task has left its place: nothing of the attempt is kept. -/
def Task.unplaced (t : Task) : Task :=
  { t with saving := none, saves := [], freeFor := none, cores := [], image := [], binds := [], wrote := [] }

/-- The children that a speculative attempt of a task has spawned, and theirs (01_work R23). -/
def State.specChildren (s : State) : Nat → List Nat → List Nat
  | 0, ids => ids
  | n + 1, ids =>
    let more := (s.tasks.filter (fun t => t.specChild && t.parent.any ids.contains && !ids.contains t.id)).map (·.id)
    if more.isEmpty then ids else s.specChildren n (ids ++ more)

/-- Discards a task: to ROLLED-BACK, then to RETIRED with no further effect (01_work R19). -/
def State.discard (s : State) (id : Nat) : State :=
  let s := s.strip id
  let s := s.modTask id (fun t => { t.unplaced with st := .rolledBack, discarded := true, parked := false, staging := [] })
  s.push (.taskRetirement id)

def State.discardChildren (s : State) (id : Nat) : State :=
  ((s.specChildren s.tasks.length [id]).filter (· != id)).foldl State.discard s

/-! ## Decisions -/

/-- The logical die on which a task's decisions are posed. -/
def Task.die (t : Task) : Nat := dieOfCore ((t.cores.head?.map (·.2)).getD t.point)

/-- The code of the hardware domain to which a task's level is bound. -/
def Task.code (t : Task) : Nat := t.levels.getD t.decl.level 7

/-- A live die of a partition's DIEMASK. -/
def State.liveFor (s : State) (part d : Nat) : Bool :=
  s.dieCode d == 0 && !(s.dieAt d).lost && bitAt (s.partAt part).cfg.diemask d

/-- The dies of a task's members, in the order of the members. -/
def Task.memberDies (t : Task) : List Nat := t.cores.map (fun c => dieOfCore c.2)

/-- The die on which a fault decision runs when the die of its task may be lost (03_accord R48); `ms` are the dies of the
task's members. -/
def State.faultDie (s : State) (t : Task) (ms : List Nat) (die : Nat) : Nat :=
  if s.dieCode die = 0 ∧ !(s.dieAt die).lost then die
  else
    let members := ms.filter (fun d => s.dieCode d == 0 && !(s.dieAt d).lost)
    let wide := decide (4 ≤ t.code)
    let near := (List.range 12).filter (fun d => s.dieCode d == 0 && !(s.dieAt d).lost && bitAt t.diemask d && (wide || d == dieOfCore t.point))
    let all := (List.range 12).filter (s.liveFor t.part)
    (members ++ near ++ all).headD die

/-- Poses a fault decision for a task, whose members stood on the dies `ms` (03_accord R48, R50). -/
def State.poseFault (s : State) (id die fcode : Nat) (ms : List Nat) : State :=
  let t := s.taskAt id
  let die := s.faultDie t ms die
  let d : Decision := { kind := .fault, part := t.part, candq := t.decl.queue, task := id, fcode := fcode, members := ms }
  (s.modDie die (fun x => { x with decisions := x.decisions ++ [d] })).push (.faultDecision t.part die)

/-- A contained fault's effect on its task: ROLLED-BACK, and the decision is posed (16_recovery R389). -/
def State.rollBack (s : State) (id fcode : Nat) : State :=
  let die := (s.taskAt id).die
  let ms := (s.taskAt id).memberDies
  let s := (s.discardChildren id).strip id
  let s := s.modTask id (fun t => { t.unplaced with st := .rolledBack, lastFault := fcode })
  s.poseFault id die fcode ms

/-- A conflict rollback (01_work R24): back to QUEUED with the inputs that staging still holds; no decision. -/
def State.conflict (s : State) (id : Nat) : State :=
  let s := (s.discardChildren id).strip id
  let s := s.modTask id (fun t => { t.unplaced with st := .rolledBack })
  s.enqueue id

/-! ## Jobs that park (16_recovery R402) -/

def TaskState.begun (t : TaskState) : Bool :=
  t == .running || t == .speculative || t == .preempted || t == .swapped

def State.parkTask (s : State) (t : Task) : State :=
  match t.st with
  | .running | .speculative => s.stopTask t.id .park
  | .preempted | .swapped => s.modTask t.id (fun t => { t with parked := true })
  | _ => s

/-- Every task that has begun is pre-empted with the parked flag, the job's records wait, and the host is told. A DONE task
that a rollback held up is looked at for its commit. -/
def State.parkJob (s : State) (job fcode element : Nat) : State :=
  match s.findJob job with
  | none => s
  | some j =>
    let s := (s.tasks.filter (fun t => t.job == job)).foldl State.parkTask s
    let s := s.modJob job (fun j => { j with parkedFor := some fcode })
    let s := s.pushAll ((s.tasks.filter (fun t => t.job == job && t.st == .done)).map (fun t => .taskRetirement t.id))
    s.note (.parkedJob job fcode element j.lastClosed)

/-! ## Rollback of a domain (16_recovery R390) -/

/-- Domain `e` of a job is `d` or nested in it. -/
def State.within (s : State) (job d : Nat) : Nat → Nat → Bool
  | 0, e => e == d
  | n + 1, e => e == d ||
    match (s.findDomain job e).bind (·.parent) with
    | some p => s.within job d n p
    | none => false

/-- The preserve store that a domain's COPY entries take. -/
def Domain.copyBytes (d : Domain) : Nat :=
  (d.preserves.map (fun p => if p.lock then 0 else p.len)).foldl (· + ·) 0

/-- Bytes of the 256-byte chunks that a LOCK entry of an open domain holds (16_recovery R386). -/
def State.locked (s : State) (spa n : Nat) : Bool :=
  let a := s.plainSpa spa
  s.domains.any (fun d => d.preserves.any (fun p =>
    let b := s.plainSpa p.spa
    p.lock && a / 256 ≤ (b + p.len - 1) / 256 && b / 256 ≤ (a + n - 1) / 256))

/-- A domain leaves: its preserved copies and locks are released, and what is left of its members, and the domains that
were opened in it, belong to the domain around it. -/
def State.dropDomain (s : State) (job id : Nat) : State :=
  match s.findDomain job id, s.findJob job with
  | some d, some j =>
    let s := s.modPart j.part (fun p => { p with pused := p.pused - d.copyBytes })
    { s with
      domains := (s.domains.filter (fun e => !(e.job == job && e.id == id))).map (fun e =>
        if e.job = job ∧ e.parent = some id then { e with parent := d.parent } else e),
      tasks := s.tasks.map (fun t => if t.job = job then
        { t with chain := t.chain.filter (· != id), domain := if t.domain = id then d.parent.getD 0 else t.domain }
      else t) }
  | _, _ => s

/-- Carries out the rollback of domain `id`: members and nested domains are discarded, the restore begins, the opener is
rolled back and its decision posed; the rind's rollback parks the job (R388, R390). -/
def State.stopDomain (s : State) (job id : Nat) (f : DomainFault) : State :=
  match s.findDomain job id with
  | none => s
  | some d =>
    match d.opener with
    | none => s.parkJob job f.fcode f.element
    | some op =>
      let inside := (s.domains.filter (fun e => e.job == job && s.within job id 8 e.id)).map (·.id)
      let members := s.tasks.filter (fun t => t.job == job && t.id != op && inside.contains t.domain && !t.discarded)
      let s := members.foldl (fun s t => s.discard t.id) s
      let s := (inside.filter (· != id)).foldl (fun s e => s.dropDomain job e) s
      let s := s.modDomain job id (fun d =>
        { d with restoring := true, rollbacks := d.rollbacks + 1, fcode := f.fcode })
      let s := (s.discardChildren op).strip op
      let s := s.modTask op (fun t => { t.unplaced with st := .rolledBack, lastFault := f.fcode, parked := false })
      (s.push (.domainRestoreComplete job id)).poseFault op f.die f.fcode f.members

/-- A fault puts a domain into the rollback set: its members stop at the next rotation boundary, and faults that fall at
one boundary are handled together (R388, R390). -/
def State.rollbackDomain (s : State) (job id fcode element : Nat) : State :=
  match s.findDomain job id with
  | none => s
  | some d =>
    if d.faulted.isSome then s
    else
      let op := s.taskAt (d.opener.getD noTaskId)
      let f : DomainFault :=
        { fcode := fcode, element := element, cycle := s.cycle, die := op.die, members := op.memberDies }
      (s.modDomain job id (fun d => { d with faulted := some f })).after 0 (.domainRestoreComplete job id)

/-- At the boundary: a domain inside another one of the set is left to that one's rollback. -/
def State.rollbackDue (s : State) (job id : Nat) (f : DomainFault) : State :=
  let s := s.modDomain job id (fun d => { d with faulted := none })
  if s.domains.any (fun e => e.job == job && e.id != id && e.faulted.isSome && s.within job e.id 8 id) then s
  else s.stopDomain job id f

/-- A fault confined to one task's own state: the outermost open domain that the task opened, or the task (R389). -/
def State.containedFault (s : State) (id fcode : Nat) : State :=
  let t := s.taskAt id
  if !t.st.begun then s
  else
    let opened := s.domains.filter (fun d => d.job == t.job && d.opener == some id)
    match opened.find? (fun d => !(opened.any (fun e => e.level < d.level))) with
    | some d => s.rollbackDomain t.job d.id fcode id
    | none => s.rollBack id fcode

/-! ## Faults of an element (16_recovery R388) -/

/-- A damaged element: a core or a die of this package, or another package. -/
inductive Element where
  | core (c : Nat) | die (d : Nat) | pkg (x : Nat)
deriving DecidableEq, Repr

def Element.num (e : Element) : Nat :=
  match e with
  | .core c => c
  | .die d => d
  | .pkg x => x

/-- The coordinates of an instance wider than PACKAGE that holds this package, rising (01_work R16; 14_fabric R346; log
entry 56). -/
def State.instancePackages (s : State) (code : Nat) : List Nat :=
  let x := s.fabric.coord
  let all := (List.range 4).flatMap (fun a => (List.range 2).flatMap (fun b =>
    (List.range s.fabric.nc).flatMap (fun c => (List.range s.fabric.nd).map (fun d => a * 2048 + b * 1024 + c * 32 + d))))
  if code = 5 then all.filter (fun p => p % 1024 == x % 1024)
  else if code = 6 then all.filter (fun p => p / 1024 == x / 1024)
  else all

/-- The instance of hardware domain `code` (Table 1-4) around core `p` contains core `c`. -/
def instanceCore (code p c : Nat) : Bool :=
  if 4 ≤ code then true else if code = 3 then dieOfCore c == dieOfCore p
  else if code = 2 then clusterOfCore c == clusterOfCore p else c == p

/-- The same for an element. -/
def State.instanceHas (s : State) (code p : Nat) (e : Element) : Bool :=
  match e with
  | .core c => instanceCore code p c
  | .die d => 4 ≤ code || (code == 3 && d == dieOfCore p)
  | .pkg x => 5 ≤ code && (s.instancePackages code).contains x

/-- The candidate of an affected task: the innermost open domain on its chain whose instance holds the element; the
rind when none does. -/
def State.candidate (s : State) (t : Task) (e : Element) : Nat :=
  (t.chain.find? (fun id =>
    match s.findDomain t.job id with
    | some d => id == 0 || s.instanceHas d.code d.point e
    | none => false)).getD 0

/-- The candidates of the affected tasks that are not nested in another candidate are rolled back. -/
def State.elementFault (s : State) (e : Element) (fcode : Nat) (affected : List Task) : State :=
  let cands := (affected.map (fun t => (t.job, s.candidate t e))).eraseDups
  let set := cands.filter (fun c => !(cands.any (fun d => d.1 == c.1 && d.2 != c.2 && s.within d.1 d.2 8 c.2)))
  set.foldl (fun s c => s.rollbackDomain c.1 c.2 fcode e.num) s

/-- Tasks with slots or a work-list entry on a core. -/
def State.tasksOn (s : State) (c : Nat) : List Task :=
  let ids := (s.coreAt c).work.map (·.1)
  s.tasks.filter (fun t => ids.contains t.id || (s.slotsOf t.id).any (fun k => coreOfSlot k == c))

/-! ## Uncorrectable errors (16_recovery R394) -/

/-- A stripe group has lost a member to a failure of a class at an element, the most recent one. -/
def Rebuild.lose (r : Rebuild) (now group chunk member fcode element : Nat) : Rebuild :=
  let r := { r with latest := now }
  let here := fun (d : Stripe) => d.group == group && d.chunk == chunk
  let add := fun (d : Stripe) =>
    let d := { d with hit := now, fcode := fcode, element := element }
    if d.members.contains member then d else { d with members := d.members ++ [member] }
  if r.gone.any here then { r with gone := r.gone.map (fun d => if here d then add d else d) }
  else if r.due.any here then { r with due := r.due.map (fun d => if here d then add d else d) }
  else { r with due := r.due ++ [{ group := group, chunk := chunk, members := [member], hit := now, fcode := fcode, element := element }] }

/-- An uncorrectable word met by an access of a task at a home: in LM the core is damaged, in a tile or unit of a matrix
context the task that owns it (R389), in an erasure-coded range the chunk is rebuilt, in other DRAM the die is damaged. -/
def State.eccFound (s : State) (task : Nat) (h : Home) (spa group : Nat) : State :=
  if h.win = .lm then
    let c := h.coreNum
    (s.note (.reported 1 c)).elementFault (.core c) 1 (s.tasksOn c)
  else if h.win ≠ .dram then
    match s.tileOwner h with
    | some t => (s.note (.reported 1 t)).containedFault t 1
    | none => s
  else if group ≠ 0 then
    match s.ecgPlace h.die group spa with
    | some (m, c) =>
      (s.modPkg (fun p => { p with rebuild := p.rebuild.lose s.now group c m 4 h.die })).push .stripeGroupRebuild
    | none => s
  else
    let s := s.note (.reported 4 h.die)
    match s.findTask task with
    | some t => s.elementFault (.die h.die) 4 [t]
    | none => s

end Machine
end Sys2Proof
end

