-- ==== Sys2Proof/Machine/L1.lean ====
section
/-!
DEFINITION. The L1 data cache of a core (08_memory_ops R193, R194, R438): lines, fills, write-backs and their refusal;
the speculative write buffer and the read tags (01_work R22).
-/
namespace Sys2Proof
namespace Machine

/-! ## Room for a line -/

/-- A line that may leave: clean, with no write-back of it under way. -/
def State.canEvict (s : State) (core : Nat) (l : L1Line) : Bool := !l.isDirty && !s.wbInFlight core l.line

/-- A line that has to leave is written back, unless its write-back has been refused: that is tried again later (R438). -/
def State.tryLine (s : State) (core : Nat) (l : L1Line) : State := if l.refused then s else s.flushLine core l.line

/-- Tries the ways of a set, the least recently used first: a dirty line is written back, and a refused one stays. -/
def State.evictOne (s : State) (core : Nat) : List L1Line → Option State
  | [] => none
  | l :: ls =>
    let s' := s.tryLine core l
    match (s'.coreAt core).findL l.line with
    | some l' => if s'.canEvict core l' then some (s'.modCore core (fun c => c.dropL l.line)) else s'.evictOne core ls
    | none => some s'

/-- The lines of a core in the set of a line. -/
def State.mates (s : State) (core line : Nat) : List L1Line :=
  (s.coreAt core).l1.filter (fun l => dset l.line == dset line)

def State.makeRoom (s : State) (core line : Nat) : Option State :=
  if (s.mates core line).length < 4 then some s else s.evictOne core (s.mates core line).reverse

/-- Where no way leaves, the write-backs of the set have been tried, and those refused are marked (R438). -/
def State.tryWays (s : State) (core line : Nat) : State :=
  (s.mates core line).reverse.foldl (fun s l => s.tryLine core l) s

/-! ## Speculation (01_work R22) -/

/-- The buffered line of the slot's task that holds an address. -/
def State.specLine (s : State) (k spa : Nat) : Option SpecLine :=
  (s.coreAt (coreOfSlot k)).spec.find? (fun l => l.task == (s.slotTask k).id && sameLine l.line (spa / 32))

/-- A store goes to the write buffer: the task is speculative, or, as head, has the line in its buffer. -/
def State.buffers (s : State) (k spa : Nat) : Bool := s.speculative k || (s.specLine k spa).isSome

/-- The bytes of `w` bytes at `spa` as a speculative task sees them: its own buffered bytes over those given. -/
def State.overlay (s : State) (k spa : Nat) (bs : List Byte) : List Byte :=
  match s.specLine k spa with
  | some l =>
    bs.zipIdx.map (fun b =>
      if l.mask.getD (spa % 32 + b.2) false then l.bytes.getD (spa % 32 + b.2) 0 else b.1)
  | none => bs

/-- Room for a read tag, or for a buffered line; without it the slot blocks until its task is head. -/
def State.tagRoom (s : State) (k spa : Nat) : Bool :=
  let c := s.coreAt (coreOfSlot k)
  !s.speculative k || c.readTags.contains ((s.slotTask k).id, lineBits (spa / 32)) || c.readTags.length < 1024

def State.bufferRoom (s : State) (k spa : Nat) : Bool :=
  let c := s.coreAt (coreOfSlot k)
  !s.speculative k || c.spec.any (fun l => l.task == (s.slotTask k).id && sameLine l.line (spa / 32)) || c.spec.length < 512

def State.tagRead (s : State) (k spa : Nat) : State :=
  if !s.speculative k then s
  else
    let e := ((s.slotTask k).id, lineBits (spa / 32))
    s.modCore (coreOfSlot k) (fun c => if c.readTags.contains e then c else { c with readTags := c.readTags ++ [e] })

/-- A speculative store into the core's write buffer. -/
def State.bufferStore (s : State) (k va spa : Nat) (bs : List Byte) : State :=
  let t := (s.slotTask k).id
  let ln := spa / 32
  s.modCore (coreOfSlot k) (fun c =>
    let old : SpecLine := (c.spec.find? (fun l => l.task == t && sameLine l.line ln)).getD
      { task := t, line := ln, bytes := List.replicate 32 0, mask := List.replicate 32 false }
    let new : SpecLine :=
      { old with
        bytes := splice old.bytes (spa % 32) bs, mask := spliceMask old.mask (spa % 32) bs.length,
        slot := k, who := (s.slotAt k).bind.getD { task := t }, va := va - spa % 32, asid := s.asidOf k }
    { c with spec := c.spec.filter (fun l => !(l.task == t && sameLine l.line ln)) ++ [new] })

/-! ## Performing an access on a present line -/

/-- A value extended to 64 bits. -/
def extend (signed : Bool) (w v : Nat) : Word := if signed then sext64 v (8 * w) else BitVec.ofNat 64 v

/-- What a checked pair stores to DRAM, its L1 writes through at once; bytes whose home refuses them stay dirty and are tried
again (R438), and the partner's copy of the line follows (15_interrupts R378). -/
def State.through (s : State) (k spa : Nat) (bs : List Byte) : State :=
  if !(s.slotTask k).paired then s
  else
    let c := coreOfSlot k
    (s.flushLine c (spa / 32)).modCore (partnerCore c) (fun c => c.modL (spa / 32) (fun l =>
      { l with bytes := splice l.bytes (spa % 32) bs }))

/-- The access of slot `k` on its present line: a load's value, or a store's bytes merged. -/
def State.onLine (s : State) (k : Nat) (a : Access) : State :=
  let c := coreOfSlot k
  match (s.coreAt c).findL (a.spa / 32) with
  | some l =>
    let s := s.modCore c (fun c => c.touchL (a.spa / 32))
    if a.store then
      let bs := leBytes a.width a.data.toNat
      ((s.tagWrite k a.spa).modCore c (fun c => c.modL (a.spa / 32) (fun l => l.merge (a.spa % 32) bs))).through k a.spa bs
    else
      let bs := s.overlay k a.spa ((l.bytes.drop (a.spa % 32)).take a.width)
      (s.tagRead k a.spa).modSlot k (fun x => x.setReg a.reg (extend a.signed a.width (leNat bs)))
  | none => s

/-- Slots of a core that wait for a line, with their accesses. -/
def State.lineWaiters (s : State) (core line : Nat) : List (Nat × Access) :=
  (slotsOfCore core).filterMap (fun k =>
    match (s.slotAt k).hold with
    | some (.fill l a) => if l = line then some (k, a) else none
    | _ => none)

/-- What the arrival of its line does for a waiting slot: the access is performed and the instruction retires, or it is
issued again, a load also where no read tag is left for it (01_work R22). -/
def State.wakeLine (s : State) (w : Nat × Access) : State :=
  if w.2.again || (!w.2.store && !s.tagRoom w.1 w.2.spa) then s.modSlot w.1 Slot.again
  else (s.onLine w.1 w.2).modSlot w.1 Slot.finish

/-- Asks the cluster's memory port for a line (R195). -/
def State.askLine (s : State) (core line : Nat) : State :=
  s.askFill (clusterOfCore core) line (.l1Fill core line)

/-! ## Events -/

/-- What a line fill reads at its home: a code and the bytes (R205). -/
def State.readFill (s : State) (line : Nat) : Nat × List Byte := s.readLine (line * 32)

/-- The erasure-coding group of a die in whose region an SPA lies; 0 for none. -/
def State.ecgNumAt (s : State) (die spa : Nat) : Nat :=
  (((s.dieAt die).ecg.map (·.1)).find? (fun g => (s.ecgPlace die g spa).isSome)).getD 0

/-- The packet of a request for a line (14_fabric R351). -/
def State.fillPacket (s : State) (core line : Nat) : Option Packet :=
  s.fabric.packets.find? (fun p => p.load == .fill core line)

/-- What the fill of a line brings: nothing while a request for it is on its way to another package, else a code and the
bytes, and whether a request has to leave first (R205; 14_fabric R351). -/
def State.fillAnswer (s : State) (core line : Nat) : Option (Nat × List Byte) :=
  if !(s.home (line * 32)).outside then some (s.readFill line)
  else ((s.fillPacket core line).bind (·.answer)).map (fun code => (code, (s.readFill line).2))

/-- A request for a line leaves for another package, once. -/
def State.askOutside (s : State) (core line : Nat) : State :=
  if (s.fillPacket core line).isSome then s
  else s.sendPacket { s.packetFor (line * 32) (.fill core line) with flow := core % 512 }

/-- The request has been answered. -/
def State.dropFill (s : State) (core line : Nat) : State :=
  s.modFabric (fun f => { f with packets := f.packets.filter (fun p => !(p.load == .fill core line && p.answer.isSome)) })

/-- A data line arrives (R193, R205, R438). A refused fill traps the slots that asked for it and is otherwise dropped;
an uncorrectable word is reported, for a fill that no slot waits for under no task. With every way of the set refused, the
fill waits until one of them is written back; at a die whose loss is not yet decided it waits at the router, which the model
looks at again every 4,096 ac (16_recovery R404). -/
def execL1Fill (core line : Nat) (s : State) : Out :=
  let ws := s.lineWaiters core line
  if ((s.coreAt core).findL line).isSome then .next (ws.foldl State.wakeLine s)
  else match s.lostChunk (line * 32) with
    | some d => .next (s.awaitChunk d)
    | none =>
      if s.heldLine line then .next (s.after (acNs 4096) (.l1Fill core line)) else
      match s.fillAnswer core line with
      | none => .next (s.askOutside core line)
      | some r =>
      let s := s.dropFill core line
      let h := s.home (line * 32)
      if r.1 ≠ 0 then
        let s := ws.foldl (fun s w => s.trapHeld w.1 0x0E (replyVal r.1 w.2.va)) s
        .next (if r.1 = 5 && !h.outside then
          s.eccFound ((ws.head?.map (fun w => (s.slotTask w.1).id)).getD noTaskId) h (line * 32)
            ((ws.head?.map (·.2.ecg)).getD (s.ecgNumAt h.die (line * 32)))
          else s)
      else match s.makeRoom core line with
        | some s' =>
          let s' := s'.modCore core (fun c =>
            { c with l1 := { line := line, bytes := r.2, dirty := List.replicate 32 false } :: c.l1 })
          let s' := match ws.head? with
            | some w => s'.chargeBytes (s'.slotTask w.1).id h 32
            | none => s'
          .next (ws.foldl State.wakeLine s')
        | none => .next (s.tryWays core line)

/-- Lines that slots of a core wait for: their fills are tried again. -/
def State.retryFills (s : State) (core : Nat) : State :=
  s.pushAll ((slotsOfCore core).filterMap (fun k =>
    match (s.slotAt k).hold with
    | some (.fill l _) => some (.l1Fill core l)
    | _ => none))

/-- The acknowledgement or refusal of a write-back (R438). A refusal leaves the bytes dirty; the slot that caused it
traps with cause 0x1A at its held instruction. -/
def execWritebackReply (wb : Nat) (code : BitVec 7) (s : State) : Out :=
  match s.wbs.find? (fun w => w.id == wb) with
  | none => .next s
  | some w =>
    let s := { s with wbs := s.wbs.filter (fun w => w.id != wb) }
    if code = 0 then
      let s := s.retryFills w.core
      match w.slot with
      | some k =>
        if (s.slotAt k).hold = some .writeback ∧ !(s.wbs.any (fun w => w.slot == some k)) then .next (s.modSlot k Slot.again)
        else .next s
      | none => .next s
    else
      let s := s.modCore w.core (fun c => c.modL w.line (fun l =>
        { l with dirty := List.zipWith (· || ·) l.dirty w.mask, refused := true }))
      let s := s.after (acNs 4096) (.writebackRetry w.core)
      match w.slot with
      | some k =>
        if (s.slotAt k).hold = some .writeback then
          .next (s.trapHeld k 0x1A (BitVec.ofNat 64 (code.toNat * 2 ^ 56 + w.line % 2 ^ 55)))
        else .next s
      | none => .next s

/-- The core tries its refused write-backs again (R438); those of lines whose home's loss is not yet decided wait on. -/
def execWritebackRetry (core : Nat) (s : State) : Out :=
  let ls := (s.coreAt core).l1.filter (fun l => l.refused && l.isDirty)
  let s := if ls.any (fun l => s.heldLine l.line) then s.after (acNs 4096) (.writebackRetry core) else s
  .next ((ls.filter (fun l => !s.heldLine l.line)).foldl (fun s l => s.startWriteBack core l.line none) s)

end Machine
end Sys2Proof
end

