-- ==== Sys2Proof/Machine/Commit.lean ====
section
/-!
DEFINITION. Commit of tasks (01_work R20, R21, R24, R25): the head of an ordered set, the commit of its buffered lines
with the conflicts that it meets, and the step from DONE to COMMITTED.
-/
namespace Sys2Proof
namespace Machine

/-! ## Ordered sets -/

def Task.ordered (t : Task) : Bool := t.decl.kind == 1

/-- Two ordered tasks of one set: one containment domain, one die. An ordered task's level is DIE or narrower, so its
instance fixes its die (R20). -/
def Task.sameSet (t u : Task) : Bool :=
  t.ordered && u.ordered && t.job == u.job && t.domain == u.domain && dieOfCore t.point == dieOfCore u.point

def Task.uncommitted (t : Task) : Bool := t.st != .committed && t.st != .retired && !t.discarded

/-- Order keys compare by TSTAMP, then by sequence. -/
def Task.keyBelow (t u : Task) : Bool :=
  t.decl.tstamp < u.decl.tstamp || (t.decl.tstamp == u.decl.tstamp && t.seq < u.seq)

/-- The head of a set: its uncommitted task with the lowest key (R21). -/
def State.isHead (s : State) (t : Task) : Bool :=
  !(s.tasks.any (fun u => u.sameSet t && u.uncommitted && u.keyBelow t))

/-- The set's head runs on: SPECULATIVE becomes RUNNING (R21). -/
def State.promote (s : State) (like : Task) : State :=
  { s with tasks := s.tasks.map (fun t =>
      if t.st = .speculative ∧ t.sameSet like ∧ s.isHead t then { t with st := .running } else t) }

/-! ## From DONE to COMMITTED -/

/-- No command of the task is left in a matrix queue. -/
def State.matDrained (s : State) (id : Nat) : Bool :=
  !(s.cores.any (fun c => c.2.mat.queue.any (fun x => x.who.task == id && x.join.isNone) ||
    c.2.mat.run.any (fun r => r.who.task == id)))

/-- Every write, copy and posted store of a task is acknowledged, and its engine commands have completed (R25). -/
def State.settled (s : State) (id : Nat) : Bool :=
  s.matDrained id && !(s.cores.any (fun c => c.2.journal.any (fun e => e.2.who.task == id && e.2.st == .sent))) &&
  !(s.cmds.any (fun x => x.who.task == id)) && !(s.msgs.any (fun m => m.who.task == id)) &&
  !(s.clusters.any (fun q => q.2.tickets.any (fun t => t.2.who.task == id &&
      match t.2.st with | .queued => true | .running => true | _ => false)))

/-- The aligned pieces that make up the set bits of a mask from bit `o` on, 2 ^ n of them: offset and width. -/
def maskPieces (mask : List Bool) : Nat → Nat → List (Nat × Nat)
  | 0, o => if mask.getD o false then [(o, 1)] else []
  | n + 1, o =>
    if ((mask.drop o).take (2 ^ (n + 1))).all id then [(o, 2 ^ (n + 1))]
    else maskPieces mask n o ++ maskPieces mask n (o + 2 ^ n)

/-- What is left of a buffered line: its bytes at `o`, `n` of them, have left the buffer. -/
def Core.specSent (c : Core) (l : SpecLine) (o n : Nat) : Core :=
  { c with spec := (c.spec.map (fun (x : SpecLine) => if x.task = l.task ∧ x.line = l.line then
      { x with mask := x.mask.mapIdx (fun i b => b && !(o ≤ i && i < o + n)) } else x)).filter (fun x => x.mask.any id) }

/-- A piece of a buffered line that lies in a window of another core goes there as a posted store of the slot that wrote it;
without a free journal entry it stays. -/
def State.publishPiece (s : State) (core : Nat) (l : SpecLine) (p : Nat × Nat) : State :=
  match s.journalSlot l.slot with
  | none => s
  | some e =>
    let va := BitVec.ofNat 64 (l.va + p.1)
    let data := BitVec.ofNat 64 (leNat ((l.bytes.drop p.1).take p.2))
    let j : JEntry := { slot := l.slot, va := va, width := p.2, data := data, fill := false, who := l.who }
    let s := s.modCore core (fun c => { c.specSent l p.1 p.2 with journal := FMap.set e j c.journal })
    s.send { id := 0, slot := l.slot, core := core, asid := l.asid, kind := .write, va := va, spa := l.line * 32 + p.1,
             width := p.2, data := data, journal := some e, who := l.who }

/-- A buffered line leaves the buffer: in DRAM its bytes go home, and a copy of it in the core's own L1 follows; a refused one
stays. A line of another core's window goes there in pieces. -/
def State.publishLine (s : State) (core : Nat) (l : SpecLine) : State :=
  if (s.home (l.line * 32)).win = .dram then
    let r := s.writeHome l.line l.bytes l.mask
    if r.2 ≠ 0 then s
    else r.1.modCore core (fun c => (c.specSent l 0 32).modL l.line (fun x =>
      { x with bytes := List.zipWith (fun b (m : Byte × Bool) => if m.2 then m.1 else b) x.bytes (l.bytes.zip l.mask) }))
  else ([0, 8, 16, 24].flatMap (maskPieces l.mask 3)).foldl (fun s p => s.publishPiece core l p) s

/-- The buffered lines of a task, each with its core. -/
def State.ownSpec (s : State) (id : Nat) : List (Nat × SpecLine) :=
  s.cores.flatMap (fun c => (c.2.spec.filter (fun l => l.task == id)).map (fun l => (c.1, l)))

/-- The buffered lines of a head are written where they belong, as at its commit, and join its write set (R22, R24). What is
refused, or finds no journal entry, stays buffered. -/
def State.publish (s : State) (id : Nat) : State :=
  let own := s.ownSpec id
  let s := s.modTask id (fun t => { t with wrote := own.map (fun e => lineBits e.2.line) ++ t.wrote })
  own.foldl (fun s e => s.publishLine e.1 e.2) s

/-- The code with which a buffered line in DRAM is refused. -/
def State.publishCode (s : State) (l : SpecLine) : Nat :=
  if (s.home (l.line * 32)).win = .dram then (s.writeHome l.line l.bytes l.mask).2 else 0

/-- The commit waits for what its buffered lines wait for, and is tried again. -/
def State.commitLater (s : State) (id : Nat) : State :=
  if s.timers.any (fun x => x.ev == .taskRetirement id) then s else s.after (acNs 4096) (.taskRetirement id)

/-- The commit of an ordered head whose buffered lines have been written: a release at DIE scope, and tasks of the set that
have read a line that it has written are rolled back (R24). -/
def State.commitOrdered (s : State) (t : Task) : State :=
  let lines := t.wrote
  let s : State := t.cores.foldl (fun s c => s.flushWhere c.2 (fun _ => true)) s
  let s : State := { s with cores := s.cores.map (fun c => (c.1, { c.2 with
    spec := c.2.spec.filter (fun l => l.task != t.id), readTags := c.2.readTags.filter (fun e => e.1 != t.id) })) }
  let hit := s.tasks.filter (fun u => u.id != t.id && u.sameSet t && u.uncommitted && u.st != .rolledBack &&
    s.cores.any (fun c => c.2.readTags.any (fun e => e.1 == u.id && lines.contains e.2)))
  hit.foldl (fun s u => s.conflict u.id) s

/-- The task's matrix context is free: once it is DONE and its queued commands have completed, or when the attempt ends
(10_matrix R251). -/
def State.releaseMatrix (s : State) (id : Nat) : State :=
  { s with
    cores := s.cores.map (fun c => (c.1, if c.2.mat.owner.any (fun b => b.task == id) then
      { c.2 with tags := [], mat := c.2.mat.free } else c.2)),
    groups := s.groups.filter (fun g => g.task != id) }

/-- A domain of the task's job that holds the task is to be rolled back at the next boundary: the rollback wins over a
commit (R26, Table 1-6). The rind is not rolled back: its job parks (16_recovery R388). -/
def State.rollbackHolds (s : State) (t : Task) : Bool :=
  s.domains.any (fun d => d.job == t.job && d.opener.isSome && d.opener != some t.id && d.faulted.isSome &&
    s.within t.job d.id 8 t.domain)

/-- A DONE task whose writes are acknowledged becomes COMMITTED, an ordered one only as head, and once its buffered lines are
written and acknowledged; the next key becomes head and may itself be DONE. -/
def State.tryCommitFuel : Nat → Nat → State → State
  | 0, _, s => s
  | n + 1, id, s =>
    let t := s.taskAt id
    let s := if t.st == .done && s.matDrained id then s.releaseMatrix id else s
    if t.st != .done || (t.ordered && !s.isHead t) || s.rollbackHolds t then s
    else
      let s := if t.ordered then s.publish id else s
      if t.ordered && !(s.ownSpec id).isEmpty then s.commitLater id
      else if !s.settled id then s else
      let s := if t.ordered then s.commitOrdered (s.taskAt id) else s
      let s := (s.modTask id (fun t => { t with st := .committed })).push (.taskRetirement id)
      if t.ordered then
        let s := s.promote t
        match s.tasks.find? (fun u => u.sameSet t && u.st == .done && s.isHead u) with
        | some u => State.tryCommitFuel n u.id s
        | none => s
      else s

def State.tryCommit (s : State) (id : Nat) : State := State.tryCommitFuel (s.tasks.length + 1) id s

/-- A task has left its set: the next key becomes head, runs on, and commits if it is DONE (R21, R24, R30). -/
def State.nextHead (s : State) (like : Task) : State :=
  let s := s.promote like
  match s.tasks.find? (fun u => u.sameSet like && u.st == .done && s.isHead u) with
  | some u => s.tryCommit u.id
  | none => s

end Machine
end Sys2Proof
end

