-- ==== Sys2Proof/Machine/Decoded.lean ====
section
/-!
DEFINITION. Decoded ranges (08_memory_ops R191, R192; 07_numbers R168): where the raw bits of an element lie, its
code, and the banks of table entries that codebook ranges name.
-/
namespace Sys2Proof
namespace Machine

/-- A codebook range: EFMT 6, 7 or 8 (04_placement Table 4-8). -/
def Range.codebook (e : Range) : Bool := e.efmt == 6 || e.efmt == 7 || e.efmt == 8

/-- The decoded ranges of R191. -/
def Range.decoded (e : Range) : Bool := e.codebook || e.efmt == 5 || (e.efmt == 4 && e.planar)

/-- Bytes of a decoded element. -/
def Range.elemBytes (e : Range) : Nat := if e.codebook then 2 else 1

/-- Bits of a raw element: 2, 3 or 4 for a codebook, 8 for T8, 6 for T6. -/
def Range.codeBits (e : Range) : Nat :=
  match e.efmt with
  | 6 => 2 | 7 => 3 | 8 => 4 | 4 => 8 | _ => 6

/-- Elements are laid out in bit planes: T8 or T6 with LAYOUT PLANAR (R168). -/
def Range.inPlanes (e : Range) : Bool := e.planar && (e.efmt == 4 || e.efmt == 5)

/-- The planes that a load path reads. -/
def Range.planesRead (e : Range) : Nat := if e.planes = 0 then e.codeBits else min e.planes e.codeBits

/-- Raw byte offset and bit of bit `i` of element `n` in a planar range (R168). -/
def Range.planeBit (e : Range) (n i : Nat) : Nat × Nat :=
  (8 * (e.codeBits * (n / 64) + e.codeBits - 1 - i) + n % 64 / 8, n % 8)

/-- The raw byte offsets that hold element `n`. -/
def Range.rawBytes (e : Range) (n : Nat) : List Nat :=
  if e.inPlanes then
    (List.range e.planesRead).map (fun j => (e.planeBit n (e.codeBits - 1 - j)).1)
  else
    let lo := e.codeBits * n / 8
    let hi := (e.codeBits * n + e.codeBits - 1) / 8
    if hi = lo then [lo] else [lo, hi]

/-- The code of element `n` from its raw bytes (R168, R191). A truncated read never gives a NaN. -/
def Range.codeOf (e : Range) (rd : Nat → Byte) (n : Nat) : Nat :=
  if e.inPlanes then
    let b := e.codeBits
    let t := (List.range e.planesRead).foldl (fun t j =>
      let p := e.planeBit n (b - 1 - j)
      t + boolNat (bitAt (rd p.1).toNat p.2) * 2 ^ (b - 1 - j)) 0
    if e.planes ≠ 0 ∧ t % 2 ^ (b - 1) = 0 then 0 else t
  else
    let o := e.codeBits * n
    ((rd (o / 8)).toNat + 256 * (if o % 8 + e.codeBits > 8 then (rd (o / 8 + 1)).toNat else 0)) / 2 ^ (o % 8) %
      2 ^ e.codeBits

/-- The codes of `count` elements from `first` on, eight bits each. -/
def packCodes (e : Range) (rd : Nat → Byte) (first count : Nat) : Nat :=
  (List.range count).foldl (fun v i => v + e.codeOf rd (first + i) * 256 ^ i) 0

/-- The block length of a codebook range. -/
def Range.blockLen (e : Range) : Nat := 64 * 2 ^ e.blk

/-- The entry of the TBL window for element `n` with index `i`: bank (block mod 4) (R192). -/
def Range.entryOf (e : Range) (n i : Nat) : Nat := 16 * (n / e.blockLen % 4) + i

end Machine
end Sys2Proof
end

