-- ==== Sys2Proof/Machine/Int.lean ====
section
/-!
DEFINITION. The integer instructions OP and OPI, division, and the constants LHI and APC (06_scalar R143 to R146).
-/
namespace Sys2Proof
namespace Machine

/-! ## Shapes -/

/-- An OP instruction with two sources (R143): the result is a function of the two values. -/
def State.binary (s : State) (d a b : Fin 32) (t u : Bool) (f : Word → Word → Word) : Out :=
  s.gated [(a, t), (b, u)] d false (fun s => (s.setReg d (f (s.reg a) (s.reg b))).retire)

/-- An OP instruction with one source (R143). -/
def State.unary (s : State) (d a : Fin 32) (t : Bool) (f : Word → Word) : Out :=
  s.gated [(a, t)] d false (fun s => (s.setReg d (f (s.reg a))).retire)

/-- A division: with IDZE set in tstat a zero divisor traps, cause 0x05, and nothing is written (R144). -/
def State.division (s : State) (d a b : Fin 32) (t u : Bool) (f : Word → Word → Word) : Out :=
  s.gated [(a, t), (b, u)] d false (fun s =>
    if s.reg b = 0 ∧ s.curSlot.csr.tstat.getLsbD 1 = true then s.trap 0x05 0
    else (s.setReg d (f (s.reg a) (s.reg b))).retire)

/-! ## Results (Table 6-3) -/

def mulHigh (a b : Word) : Word := BitVec.ofInt 64 (a.toInt * b.toInt / 2 ^ 64)
def mulHighU (a b : Word) : Word := BitVec.ofNat 64 (a.toNat * b.toNat / 2 ^ 64)
/-- The count of a shift, b[5:0]. -/
def shiftCount (b : Word) : Nat := b.toNat % 64
def rotateRight (a b : Word) : Word := a.rotateRight (shiftCount b)
def minS (a b : Word) : Word := if a.slt b then a else b
def maxS (a b : Word) : Word := if a.slt b then b else a
def minU (a b : Word) : Word := if a.ult b then a else b
def maxU (a b : Word) : Word := if a.ult b then b else a
def leadingZeros (a : Word) : Nat := if a = 0 then 64 else 63 - Nat.log2 a.toNat
def trailingZeros (a : Word) : Nat := if a = 0 then 64 else Nat.log2 (a &&& (-a)).toNat
def onesCount (a : Word) : Nat := (List.range 64).foldl (fun n i => n + boolNat (bitAt a.toNat i)) 0
def bitsReversed (a : Word) : Word :=
  BitVec.ofNat 64 ((List.range 64).foldl (fun n i => 2 * n + boolNat (bitAt a.toNat i)) 0)
def bytesReversed (a : Word) : Word := BitVec.ofNat 64 (leNat (leBytes 8 a.toNat).reverse)

/-- Division results (R144): truncation toward zero, all ones for a zero divisor, -2^63 / -1 = -2^63. -/
def divS (a b : Word) : Word := if b = 0 then BitVec.allOnes 64 else BitVec.ofInt 64 (Int.tdiv a.toInt b.toInt)
def divU (a b : Word) : Word := if b = 0 then BitVec.allOnes 64 else BitVec.ofNat 64 (a.toNat / b.toNat)
def remS (a b : Word) : Word := if b = 0 then a else BitVec.ofInt 64 (Int.tmod a.toInt b.toInt)
def remU (a b : Word) : Word := if b = 0 then a else BitVec.ofNat 64 (a.toNat % b.toNat)

/-! ## Meanings -/

def execAdd (d a b : Fin 32) (t u : Bool) (s : State) : Out := s.binary d a b t u (fun x y => x + y)
def execSub (d a b : Fin 32) (t u : Bool) (s : State) : Out := s.binary d a b t u (fun x y => x - y)
def execMul (d a b : Fin 32) (t u : Bool) (s : State) : Out := s.binary d a b t u (fun x y => x * y)
def execMulh (d a b : Fin 32) (t u : Bool) (s : State) : Out := s.binary d a b t u mulHigh
def execMulhu (d a b : Fin 32) (t u : Bool) (s : State) : Out := s.binary d a b t u mulHighU
def execDiv (d a b : Fin 32) (t u : Bool) (s : State) : Out := s.division d a b t u divS
def execDivu (d a b : Fin 32) (t u : Bool) (s : State) : Out := s.division d a b t u divU
def execRem (d a b : Fin 32) (t u : Bool) (s : State) : Out := s.division d a b t u remS
def execRemu (d a b : Fin 32) (t u : Bool) (s : State) : Out := s.division d a b t u remU
def execAnd (d a b : Fin 32) (t u : Bool) (s : State) : Out := s.binary d a b t u (fun x y => x &&& y)
def execOr (d a b : Fin 32) (t u : Bool) (s : State) : Out := s.binary d a b t u (fun x y => x ||| y)
def execXor (d a b : Fin 32) (t u : Bool) (s : State) : Out := s.binary d a b t u (fun x y => x ^^^ y)
def execAndn (d a b : Fin 32) (t u : Bool) (s : State) : Out := s.binary d a b t u (fun x y => x &&& ~~~ y)
def execSll (d a b : Fin 32) (t u : Bool) (s : State) : Out := s.binary d a b t u (fun x y => x <<< shiftCount y)
def execSrl (d a b : Fin 32) (t u : Bool) (s : State) : Out := s.binary d a b t u (fun x y => x >>> shiftCount y)
def execSra (d a b : Fin 32) (t u : Bool) (s : State) : Out :=
  s.binary d a b t u (fun x y => x.sshiftRight (shiftCount y))
def execRor (d a b : Fin 32) (t u : Bool) (s : State) : Out := s.binary d a b t u rotateRight
def execMin (d a b : Fin 32) (t u : Bool) (s : State) : Out := s.binary d a b t u minS
def execMax (d a b : Fin 32) (t u : Bool) (s : State) : Out := s.binary d a b t u maxS
def execMinu (d a b : Fin 32) (t u : Bool) (s : State) : Out := s.binary d a b t u minU
def execMaxu (d a b : Fin 32) (t u : Bool) (s : State) : Out := s.binary d a b t u maxU
def execSlt (d a b : Fin 32) (t u : Bool) (s : State) : Out := s.binary d a b t u (fun x y => boolWord (x.slt y))
def execSltu (d a b : Fin 32) (t u : Bool) (s : State) : Out := s.binary d a b t u (fun x y => boolWord (x.ult y))
def execSeq (d a b : Fin 32) (t u : Bool) (s : State) : Out := s.binary d a b t u (fun x y => boolWord (x == y))

/-- `SEL` reads rd too, which blocks on empty (R143). -/
def execSel (d a b : Fin 32) (t u : Bool) (s : State) : Out :=
  s.gated [(a, t), (b, u), (d, false)] d false (fun s =>
    (s.setReg d (if s.reg d ≠ 0 then s.reg a else s.reg b)).retire)

def execClz (d a : Fin 32) (t : Bool) (s : State) : Out := s.unary d a t (fun x => BitVec.ofNat 64 (leadingZeros x))
def execCtz (d a : Fin 32) (t : Bool) (s : State) : Out := s.unary d a t (fun x => BitVec.ofNat 64 (trailingZeros x))
def execPopc (d a : Fin 32) (t : Bool) (s : State) : Out := s.unary d a t (fun x => BitVec.ofNat 64 (onesCount x))
def execBrev (d a : Fin 32) (t : Bool) (s : State) : Out := s.unary d a t bitsReversed
def execBswap (d a : Fin 32) (t : Bool) (s : State) : Out := s.unary d a t bytesReversed

/-! OPI: the immediate is sign-extended for every function (R145, Table 6-4). -/

def execAddi (d a : Fin 32) (t : Bool) (i : Fin 2048) (s : State) : Out := s.unary d a t (fun x => x + simm 11 i)
def execAndi (d a : Fin 32) (t : Bool) (i : Fin 2048) (s : State) : Out := s.unary d a t (fun x => x &&& simm 11 i)
def execOri (d a : Fin 32) (t : Bool) (i : Fin 2048) (s : State) : Out := s.unary d a t (fun x => x ||| simm 11 i)
def execXori (d a : Fin 32) (t : Bool) (i : Fin 2048) (s : State) : Out := s.unary d a t (fun x => x ^^^ simm 11 i)
def execSlti (d a : Fin 32) (t : Bool) (i : Fin 2048) (s : State) : Out :=
  s.unary d a t (fun x => boolWord (x.slt (simm 11 i)))
def execSltiu (d a : Fin 32) (t : Bool) (i : Fin 2048) (s : State) : Out :=
  s.unary d a t (fun x => boolWord (x.ult (simm 11 i)))
def execSlli (d a : Fin 32) (t : Bool) (i : Fin 64) (s : State) : Out := s.unary d a t (fun x => x <<< i.val)
def execSrli (d a : Fin 32) (t : Bool) (i : Fin 64) (s : State) : Out := s.unary d a t (fun x => x >>> i.val)
def execSrai (d a : Fin 32) (t : Bool) (i : Fin 64) (s : State) : Out := s.unary d a t (fun x => x.sshiftRight i.val)

/-! Constants (R146): neither instruction has a source or traps. -/

def execLhi (d : Fin 32) (i : Fin 2097152) (s : State) : Out :=
  s.gated [] d false (fun s => (s.setReg d (simm 21 i <<< 11)).retire)
def execApc (d : Fin 32) (i : Fin 2097152) (s : State) : Out :=
  s.gated [] d false (fun s => (s.setReg d (s.curSlot.pc + simm 21 i <<< 11)).retire)

end Machine
end Sys2Proof
end

