-- ==== Sys2Proof/Machine/Home.lean ====
section
/-!
DEFINITION. The homes (08_memory_ops R197, R198, R201, R202, R204, R207, R208; 13_consistency R343): what an access
does at its word, the waiting accesses and the pass over them, the REG and TBL windows (04_placement R79, R80), sending
a message, and the posted-store journal.
-/
namespace Sys2Proof
namespace Machine

/-! ## Windows of registers and table entries -/

/-- The hardware slot and the register that a REG window offset names (R79). -/
def Home.regSlot (h : Home) : Nat := h.coreNum * 16 + fieldAt h.off 8 4
def Home.regNum (h : Home) : Fin 32 := regFin (fieldAt h.off 3 5)

/-- An address space may reach a slot of another: its own, or one with a range that names it as peer (R79). -/
def State.mayReach (s : State) (writer target die : Nat) : Bool :=
  writer == target || (s.rangesOf die target).any (fun e => e.peeren && e.peer == writer)

/-- Entry `e` of the TBL window: number 16 · bank + entry (R80). -/
def Core.tblAt (c : Core) (e : Nat) : Nat := (FMap.get 0 c.tbl e).toNat

/-- Bytes read from a TBL window. -/
def Core.readTbl (c : Core) (off n : Nat) : List Byte :=
  (List.range n).map (fun i => BitVec.ofNat 8 (c.tblAt ((off + i) / 2) / 256 ^ ((off + i) % 2)))

/-- An aligned write of 2, 4 or 8 bytes stores each entry it covers and sets it full. -/
def Core.writeTbl (c : Core) (off : Nat) (bs : List Byte) : Core :=
  (List.range (bs.length / 2)).foldl (fun c i =>
    { c with
      tbl := FMap.set (off / 2 + i) (BitVec.ofNat 16 (leNat ((bs.drop (2 * i)).take 2))) c.tbl,
      tblFull := insertWord (off / 2 + i) c.tblFull }) c

/-- Bytes read at a home of this package, from whichever window. -/
def State.readBytes (s : State) (h : Home) (n : Nat) : List Byte :=
  match h.win with
  | .reg => ((leBytes 8 ((s.slotAt h.regSlot).reg h.regNum).toNat).drop (h.off % 8)).take n
  | .tbl => (s.coreAt h.coreNum).readTbl h.off n
  | _ => Memory.readList (s.under h n).mem h.key n

/-! ## Deliveries into a checked pair -/

/-- The partner's address of a local address, where a checked pair holds the core whose LM it is (15_interrupts R378). -/
def State.twinKey (s : State) (key : Nat) : Option Nat :=
  let c := fieldAt key 42 4 * 512 + fieldAt key 33 7 * 8 + fieldAt key 30 3
  if fieldAt key 40 2 = 1 ∧ fieldAt key 26 4 = 0 ∧ (s.coreAt c).pairWith.isSome then
    some (key + (c + 4) % 8 * 2 ^ 30 - c % 8 * 2 ^ 30)
  else none

/-- Bytes or a full/empty bit that an access performed once sets, in both local memories of a checked pair. -/
def State.storeBoth (s : State) (key : Nat) (bs : List Byte) : State :=
  match s.twinKey key with
  | some k2 => (s.store key bs).store k2 bs
  | none => s.store key bs

def State.setFullBoth (s : State) (key : Nat) (b : Bool) : State :=
  match s.twinKey key with
  | some k2 => (s.setFull key b).setFull k2 b
  | none => s.setFull key b

/-! ## Atomics and cells -/

/-- The functions of R110 on operands of `w` bytes, with the flags of FADD (R210, R211). -/
def amoResult (f w : Nat) (cmp old x : Word) : Word × Nat :=
  let o := extend true w (old.toNat % 2 ^ (8 * w))
  let y := extend true w (x.toNat % 2 ^ (8 * w))
  let uo := BitVec.ofNat 64 (old.toNat % 2 ^ (8 * w))
  let uy := BitVec.ofNat 64 (x.toNat % 2 ^ (8 * w))
  match f with
  | 0 => (old + x, 0)
  | 1 => (x, 0)
  | 2 => (if old.toNat % 2 ^ (8 * w) = cmp.toNat % 2 ^ (8 * w) then x else old, 0)
  | 3 => (old &&& x, 0)
  | 4 => (old ||| x, 0)
  | 5 => (old ^^^ x, 0)
  | 6 => (minS o y, 0)
  | 7 => (maxS o y, 0)
  | 8 => (minU uo uy, 0)
  | 9 => (maxU uo uy, 0)
  | _ =>
    let fm := if w = 8 then fp64 else fp32
    let r := fm.addBits 0 (fm.bits old) (fm.bits x)
    (BitVec.ofNat 64 r.1, r.2)

/-- The cell after one addition (07_numbers R180, R181): 48 bytes as a number, A below COUNT and the flags; the status
word's reserved bits stay as they stand. -/
def cellAdd (fmt cell x : Nat) : Nat :=
  let f := fmtOf fmt
  let a := cell % 2 ^ 320
  let st := cell / 2 ^ 320 % 2 ^ 32
  let count := min (cell / 2 ^ 352 % 2 ^ 32 + 1) (2 ^ 32 - 1)
  let put := fun (a st : Nat) => a + st * 2 ^ 320 + count * 2 ^ 352
  match f.num x with
  | .nan => put a (st ||| 1)
  | .inf false => put a (st ||| 2)
  | .inf true => put a (st ||| 4)
  | .fin v =>
    let n := signedField a 320 + v.over (-149)
    let fits := decide (-(2 ^ 319 : Int) ≤ n) && decide (n < (2 ^ 319 : Int))
    put ((n % (2 ^ 320 : Int)).toNat) (if fits then st else st ||| 8)

/-- The rounded value of a cell with its flags (R181). -/
def cellRound (fmt rm cell : Nat) : Nat × Nat :=
  let f := fmtOf fmt
  let st := cell / 2 ^ 320 % 16
  if bitAt st 0 then (f.nan, 0)
  else if bitAt st 3 || (bitAt st 1 && bitAt st 2) then (f.nan, 16)
  else if bitAt st 1 then (f.inf, 0)
  else if bitAt st 2 then (f.withSign true f.inf, 0)
  else f.round rm (exactOfInt (signedField (cell % 2 ^ 320) 320) (-149))

/-! ## An access at its word -/

/-- The condition of a mode (Table 8-4) and of an acquire (13_consistency R336). -/
def Msg.holds (m : Msg) (full : Bool) : Bool :=
  match m.kind with
  | .loadFe mode => if mode = 1 ∨ mode = 2 then full else true
  | .storeFe mode => if mode = 3 then !full else true
  | .acq _ _ => full
  | _ => true

/-- An instruction that may wait at its word for a condition (Table 15-2). -/
def MsgKind.awaits (x : MsgKind) : Bool :=
  match x with
  | .loadFe mode => mode == 1 || mode == 2
  | .storeFe mode => mode == 3
  | .acq _ _ => true
  | _ => false

/-- An access that needs the word as it stands: an uncorrectable error in it refuses the access (16_recovery R394).
A write, a full/empty store and a release fill do not read; XCLR writes its whole cell. -/
def Msg.needsWord (m : Msg) : Bool :=
  match m.kind with
  | .write => false
  | .storeFe _ => false
  | .feSet => false
  | .xclr => false
  | .relFill => false
  | .relMark => false
  | _ => true

/-- The access performed at its home's memory: the new state, the value it returns and floating flags (R198, R199,
R210, R181, R336, R337). -/
def State.perform (s : State) (m : Msg) (key : Nat) : State × Word × Nat :=
  let h := { s.home m.spa with key := key }
  let word := BitVec.ofNat 64 ((s.under h m.width).loadNat key m.width)
  let put := fun (n v : Nat) => (s.under h n).storeBoth key (leBytes n v)
  match m.kind with
  | .read => (s, word, 0)
  | .write => (put m.width m.data.toNat, 0, 0)
  | .loadFe mode => (if mode = 2 ∨ mode = 5 then s.setFullBoth key false else s, word, 0)
  | .storeFe mode =>
    let s := put 8 m.data.toNat
    (if mode = 3 ∨ mode = 4 then s.setFullBoth key true else s, 0, 0)
  | .feGet => (s, boolWord (s.isFull key), 0)
  | .feSet => (s.setFullBoth key (bitAt m.data.toNat 0), 0, 0)
  | .amo f cmp =>
    let r := amoResult f m.width cmp word m.data
    (put m.width r.1.toNat, word, r.2)
  | .amoFadd _ =>
    let r := amoResult 10 m.width 0 word m.data
    (put m.width r.1.toNat, word, r.2)
  | .xclr => (put 64 0, 0, 0)
  | .xacc fmt => (put 48 (cellAdd fmt ((s.under h 48).loadNat key 48) ((fmtOf fmt).bits m.data)), 0, 0)
  | .xrnd fmt rm =>
    let r := cellRound fmt rm ((s.under h 48).loadNat key 48)
    (s, BitVec.ofNat 64 r.1, r.2)
  | .acq ex _ => (if ex then s.setFullBoth key false else s, word, 0)
  | .relFill => ((put 8 m.data.toNat).setFullBoth key true, 0, 0)
  | .relMark => (s, 0, 0)
  | .readCodes e first count =>
    let p := e.start
    let rd := fun i => (s.overlay m.slot (p + i) (s.readBytes (s.home (p + i)) 1)).headD 0
    (s, BitVec.ofNat 64 (packCodes e rd first count), 0)

/-- An uncorrectable error lies in the bytes that an access reads; a decoded load reads its raw bytes (R191). -/
def State.badFor (s : State) (m : Msg) (key : Nat) : Bool :=
  match m.kind with
  | .readCodes e first count =>
    ((List.range count).flatMap (fun i => e.rawBytes (first + i))).any
      (fun i => s.isBad (s.home (e.start + i)).key 1)
  | _ => m.needsWord && s.isBad key m.width

/-- What a read of a REG or TBL window returns (R79, R80). -/
def State.windowRead (s : State) (m : Msg) (h : Home) : Word :=
  match m.kind with
  | .readCodes .. => (s.perform m h.key).2.1
  | _ => BitVec.ofNat 64 (leNat (s.readBytes h m.width))

/-! ## Replies of another package -/

/-- A free byte of another package, by its SPA. -/
def State.freeByte (s : State) (a : Nat) : Byte :=
  BitVec.ofNat 8 ((Config.freeWord s.freeCtr (a / 8)).toNat / 256 ^ (a % 8))

/-- The reply of another package that carries an access out: values and flags are free within what the access can return; XRND
rounds a cell that is free
(07_numbers R163, R181; R191, R192, R199, R206, R211). -/
def State.outsideReply (s : State) (m : Msg) : Word × Nat :=
  let w := (Config.freeWord s.freeCtr m.id).toNat
  let fl := (Config.freeWord s.freeCtr (m.id + 1)).toNat % 32 &&& 23
  let word := BitVec.ofNat 64 (w % 2 ^ (8 * min m.width 8))
  match m.kind with
  | .read | .loadFe _ | .acq _ _ | .amo _ _ => (word, 0)
  | .feGet => (BitVec.ofNat 64 (w % 2), 0)
  | .amoFadd _ => (word, fl)
  | .xrnd fmt rm =>
    let cell := leNat ((List.range 6).flatMap (fun i => leBytes 8 (Config.freeWord s.freeCtr (m.id + 2 + i)).toNat))
    let r := cellRound fmt rm cell
    (BitVec.ofNat 64 r.1, r.2)
  | .readCodes e first count =>
    let p := e.start
    (BitVec.ofNat 64 (packCodes e (fun i => (s.overlay m.slot (p + i) [s.freeByte (p + i)]).headD 0) first count), 0)
  | .write | .storeFe _ | .feSet | .xclr | .xacc _ | .relFill | .relMark => (0, 0)

/-- The energy of an access: its bytes at its place, charged to its task (17_retire R408). -/
def State.chargeMsg (s : State) (m : Msg) : State := s.chargeBytes m.who.task (s.home m.spa) m.width

/-- A performed access is answered: a posted store by its acknowledgement, any other by its reply. Copies of its lines
that the L1s of its core hold follow what stands at the home, so that no later load of the core reads an older value
(13_consistency R344, axioms 1 and 2). -/
def State.answer (s : State) (m : Msg) (v : Word) (fl : Nat) : State :=
  let s := s.chargeMsg m
  let cores := if (s.coreAt m.core).pairWith.isSome then [m.core, partnerCore m.core] else [m.core]
  let s := cores.foldl (fun s c => s.refreshLines c m.spa m.width) s
  match m.journal with
  | some e => (s.dropMsg m.id).push (.journalAck m.core e)
  | none => (s.modMsg m.id (fun x => { x with st := .replied v fl })).push (.replyArrival m.id)

/-- A refused access changes nothing at its target (R204). -/
def State.refuse (s : State) (m : Msg) (code : Nat) : State :=
  match m.journal with
  | some e => (s.dropMsg m.id).push (.postedStoreRefusal m.core e (BitVec.ofNat 7 code))
  | none => (s.modMsg m.id (fun x => { x with st := .refused code })).push (.replyArrival m.id)

/-- The oldest access waiting on the word of `key` whose condition holds. -/
def State.nextWaiter (s : State) (key : Nat) : Option Msg :=
  s.msgs.find? (fun m => m.st == .waiting && (s.home m.spa).key / 8 == key / 8 && m.holds (s.isFull key))

/-- The pass of R201: again and again the oldest waiting access whose condition holds. -/
def State.homePassFuel : Nat → Nat → State → State
  | 0, _, s => s
  | n + 1, key, s =>
    match s.nextWaiter key with
    | none => s
    | some m =>
      let r := s.perform m (s.home m.spa).key
      State.homePassFuel n key (r.1.answer m r.2.1 r.2.2)

def State.homePass (s : State) (key : Nat) : State := State.homePassFuel (s.msgs.length + 1) key s

/-- An access performed at once on memory, with the pass that follows (R201). -/
def State.performAt (s : State) (m : Msg) (key : Nat) : State × Word × Nat :=
  let r := s.perform m key
  (r.1.homePass key, r.2.1, r.2.2)

/-! ## Retry lists (R202) -/

/-- The message takes its place at the end of those that wait. -/
def State.wait (s : State) (m : Msg) : State :=
  { s with msgs := s.msgs.filter (fun x => x.id != m.id) ++ [{ m with st := .waiting }] }

/-- The messages that wait at the memory controllers of a home's die. -/
def State.waitingAt (s : State) (h : Home) : List Msg :=
  s.msgs.filter (fun x => x.st == .waiting &&
    (let y := s.home x.spa
     y.win == .dram && y.die == h.die))

/-- A core's network interface holds 32 entries. A wait of the core's own slots at its own local memory is no entry of that
list; their writes into its REG window are (06_scalar R140). -/
def coreListSize : Nat := 32

/-- The 32 entries of a core's network interface are taken, by messages and by boxes that wait for a register. -/
def State.coreListFull (s : State) (core : Nat) : Bool :=
  coreListSize ≤ s.msgs.countP (fun x => x.st == .waiting &&
      (let y := s.home x.spa
       y.win != .dram && y.coreNum == core && (x.core != core || y.win == .reg))) +
    s.boxes.countP (fun b => b.waitsAt.any (fun w => w.1 == core))

/-- The retry list of a home is full: 256 entries in each controller, 32 in each core's network interface. -/
def State.retryFull (s : State) (h : Home) : Bool :=
  let ws := s.waitingAt h
  if h.win = .dram then
    256 ≤ ws.length && 256 ≤ (ws.filter (fun x =>
      Config.controllerOf h.die ((s.home x.spa).off / 64) % Config.controllers h.die ==
        Config.controllerOf h.die (h.off / 64) % Config.controllers h.die)).length
  else s.coreListFull h.coreNum

/-- Waits in the retry list, or is refused with RETRY-FULL; at the own local memory of its core a wait takes no entry. -/
def State.waitOrRefuse (s : State) (m : Msg) (h : Home) : State :=
  if s.retryFull h && !(h.win == .lm && m.core == h.coreNum) then s.refuse m 3 else s.wait m

/-! ## Arrival of a message at its home -/

/-- The checks before a home acts: another package answers as it will; a request for a die whose loss is not yet
decided is held at the router (16_recovery R404); a fenced die refuses. -/
def State.atHome (s : State) (id : Nat) (act : Msg → Home → State) : State :=
  match s.findMsg id with
  | none => s
  | some m =>
    if m.st != .sent then s
    else
      let h := s.home m.spa
      if h.outside then
        let code := s.packetCode m.spa id
        if code = 0 then s.answer m (s.outsideReply m).1 (s.outsideReply m).2 else s.refuse m code
      else if s.dieCode h.die ≠ 0 then s.refuse m (s.dieCode h.die)
      else if (s.dieAt h.die).lost then s.modDie h.die (fun d => { d with heldReqs := d.heldReqs ++ [id] })
      else act m h

/-- A message carried out at LM, DRAM, ACC or BST, or a read of a REG or TBL window (R79, R80, R201). -/
def execHomeAccess (msg : Nat) (s : State) : Out :=
  .next (s.atHome msg (fun m h =>
    if h.win = .bad then s.refuse m 1
    else if h.win = .reg then
      match (s.slotAt h.regSlot).bind with
      | none => s.refuse m 4
      | some _ =>
        if !s.mayReach m.asid (s.asidOf h.regSlot) h.die then s.refuse m 1
        else s.answer m (s.windowRead m h) 0
    else if h.win = .tbl then s.answer m (s.windowRead m h) 0
    else match s.lostChunk m.spa with
      | some d => (s.waitOrRefuse m h).awaitChunk d
      | none =>
        if s.unrecoverable m.spa then s.refuse m 5
        else if s.badFor m h.key then
          (s.refuse m 5).eccFound m.who.task h m.spa m.ecg
        else if m.holds (s.isFull h.key) then
          let r := s.perform m h.key
          (r.1.answer m r.2.1 r.2.2).homePass h.key
        else s.waitOrRefuse m h))

/-- The slot is woken: a held `HALT` retires, and with none the wake flag is set (06_scalar R156). -/
def Slot.awaken (x : Slot) : Slot := if x.hold = some .halt then x.finish else { x with wake := true }

/-- A write into a register by window: the value, full, and the slot woken (R79, 06_scalar R156). -/
def Slot.windowWrite (x : Slot) (r : Fin 32) (v : Word) : Slot := if r = 0 then x else (x.setReg r v).awaken

/-- A slot whose registers must not be written now: the register is pending, or the slot is being saved (06_scalar
R140, 15_interrupts R369). -/
def Slot.windowBusy (x : Slot) (r : Fin 32) : Bool := x.pending r || (x.stopped && r ≠ 0)

/-- A REG-window write arrives, at first or after its wait (R79, R140). Deliveries reach both copies of a checked pair
(15_interrupts R378). -/
def execRegWindowWrite (msg : Nat) (s : State) : Out :=
  let s := s.modMsg msg (fun m => if m.st = .waiting then { m with st := .sent } else m)
  .next (s.atHome msg (fun m h =>
    let x := s.slotAt h.regSlot
    match x.bind with
    | none => s.refuse m 4
    | some b =>
      if !s.mayReach m.asid (s.asidOf h.regSlot) h.die then s.refuse m 1
      else if x.windowBusy h.regNum then s.waitOrRefuse m h
      else
        let ks := (s.slots.filter (fun e =>
          e.2.bind.any (fun c => c.task == b.task && c.j == b.j && c.m == b.m))).map (·.1)
        (s.modSlots ks (fun x => x.windowWrite h.regNum m.data)).answer m 0 0))

/-- REG-window writes that wait for a slot are looked at again, and boxes that wait for a register of its core. -/
def State.regPass (s : State) (k : Nat) : State :=
  s.pushAll ((s.msgs.filter (fun m => m.st == .waiting && (s.home m.spa).win == .reg &&
    (s.home m.spa).regSlot == k)).map (fun m => .regWindowWrite m.id) ++
    (s.boxes.filterMap (fun b => b.waitsAt.bind (fun w => if w.1 = coreOfSlot k then some w.2 else none))).filter
      (fun e => !s.agenda.contains e))

/-- A write into the TBL window arrives (R80), after what the weight path does to its banks in the same moment (11_grouped
R293). Weight-path reads that wait for entries look at them by themselves. -/
def execTblWindowWrite (msg : Nat) (s : State) : Out :=
  .next (s.atHome msg (fun m h =>
    if s.tableDue h.coreNum then s.push (.tblWindowWrite msg) else
    (s.modCore h.coreNum (fun c => c.writeTbl h.off (leBytes m.width m.data.toNat))).answer m 0 0))

/-! ## The journal (R207 to R209) -/

/-- A journal entry overlaps `w` bytes at `v` (R188). -/
def JEntry.overlaps (e : JEntry) (v w : Nat) : Bool := e.va.toNat < v + w && v < e.va.toNat + e.width

/-- An access of the slot waits for a posted store of its own that it overlaps (R188). -/
def State.journalBlocks (s : State) (k v w : Nat) : Bool :=
  (s.coreAt (coreOfSlot k)).journal.any (fun e => e.2.slot == k && e.2.st == .sent && e.2.overlaps v w)

/-- The acknowledgement of a posted store frees its entry; a DONE task may now commit (R207, 01_work R25). -/
def execJournalAck (core entry : Nat) (s : State) : Out :=
  match FMap.find (s.coreAt core).journal entry with
  | none => .next s
  | some j => .next ((s.modCore core (fun c => { c with journal := FMap.drop entry c.journal })).tryCommit j.who.task)

end Machine
end Sys2Proof
end

