-- ==== Sys2Proof/Machine/Retire.lean ====
section
/-!
DEFINITION. Retirement (17_retire R405 to R410, 02_launch R43): task and note records, the settlement of energy, the
move to RETIRED, the completion of launch records, the closing of a job's rind; and the refusal of a posted store
(08_memory_ops R208, R209).
-/
namespace Sys2Proof
namespace Machine

/-! ## Records (Table 17-2) -/

/-- A record's fields as (lowest bit, value). -/
def fieldsNat (fs : List (Nat × Nat)) : Nat := fs.foldl (fun n f => n + f.2 * 2 ^ f.1) 0

/-- The negative reply that a write of the scheduler meets at an SPA, 0 for none: of another package (14_fabric R349), of a
fenced die or one that is lost and will be fenced (16_recovery R404), of a lost stripe group (R401). -/
def State.writeCode (s : State) (spa n : Nat) : Nat :=
  let h := s.home spa
  if h.outside then s.outsideCode spa spa
  else if s.dieCode h.die ≠ 0 then s.dieCode h.die
  else if (s.dieAt h.die).lost then 2
  else if (cutAt 256 spa n).any (fun c => s.unrecoverable c.1) then 5 else 0

/-- Writes a record into a partition's retirement log; the log's index is bits 63:48 (R405). -/
def State.writeRecord (s : State) (part rcd : Nat) : State :=
  let p := s.partAt part
  if p.rlsize < 4 || 12 < p.rlsize then s
  else
    let spa := p.rlbase * 64 + 64 * (p.rlhead % 2 ^ p.rlsize)
    let h := s.home spa
    let good := (h.win == .dram || h.win == .lm) && s.writeCode spa 64 == 0
    let s := if good && !h.outside then (s.under h 64).storeNat h.key 64 (rcd + p.rlhead * 2 ^ 48) else s
    s.modPart part (fun p => { p with rlhead := (p.rlhead + 1) % 65536, rlerr := p.rlerr || !good })

/-- The note of a refused posted store, or of an outcome after the last TDONE (R406). -/
def State.noteRefusal (s : State) (t : Task) (va code : Nat) : State :=
  s.writeRecord t.part (fieldsNat [(320, s.now % 2 ^ 64), (208, va % 2 ^ 48), (192, code), (127, 1), (32, t.job), (0, t.id)])

def State.noteOutcome (s : State) (t : Task) (va token code : Nat) : State :=
  s.writeRecord t.part (fieldsNat [(320, s.now % 2 ^ 64), (272, va % 2 ^ 48), (264, token), (256, code), (127, 1),
    (32, t.job), (0, t.id)])

/-! ## Settlement (R409) -/

/-- The charge in µJ, rounded up; the meter counts hundredths of a pJ. -/
def Task.charged (t : Task) : Nat := (t.meter + 99999999) / 100000000

def State.settleEnergy (s : State) (t : Task) : State × Bool :=
  let a := (s.partAt t.part).cfg.energy + t.decl.energy
  let overdrawn := decide (a < t.charged)
  let e := if overdrawn then 0 else min (a - t.charged) (2 ^ 64 - 1)
  (s.modPart t.part (fun p => { p with cfg := { p.cfg with energy := e } }), overdrawn)

/-! ## Leaving the scheduler -/

/-- The job's rind closes once every task of a job marked LAST has retired (02_launch R37). -/
def State.closeJob (s : State) (job : Nat) : State :=
  match s.findJob job with
  | some j =>
    if j.last && !(s.tasks.any (fun t => t.job == job)) then
      let s := (s.domains.filter (fun d => d.job == job)).foldl (fun s d => s.dropDomain job d.id) s
      { s with jobs := s.jobs.filter (fun j => j.num != job) }
    else s
  | none => s

/-- The completion signals of a launch record (02_launch R43): the completion word, whose addition needs the rights of an
atomic (04_placement R85), then the notification. -/
def State.complete (s : State) (l : Launch) : State :=
  let s :=
    if l.cpladdr = 0 then s
    else match s.translate l.die l.asid l.cpladdr 8 with
      | some (e, a) =>
        let h := s.home a
        if e.r && e.w && e.ecg = 0 && l.cpladdr % 8 = 0 && h.synchronises && s.writeCode a 8 == 0 then
          if h.outside then s else (let u := s.under h 8
             u.storeNat h.key 8 (u.loadNat h.key 8 + 1)).homePass h.key
        else s.modPart l.part (fun p => { p with cplFaults := p.cplFaults + 1 })
      | none => s.modPart l.part (fun p => { p with cplFaults := p.cplFaults + 1 })
  if l.notify then s.note (.complete l.part l.index) else s

/-- One task of a launch record has retired. -/
def State.countDown (s : State) (t : Task) : State :=
  match t.launch with
  | none => s
  | some (p, i) =>
    let due := s.pkg.launches.filter (fun l => l.part == p && l.index == i && l.left ≤ 1)
    let still := s.pkg.launches.filter (fun l => !(l.part == p && l.index == i && l.left ≤ 1))
    let still := still.map (fun l => if l.part = p ∧ l.index = i then { l with left := l.left - 1 } else l)
    let s := s.modPkg (fun k => { k with launches := still })
    due.foldl State.complete s

/-- The release before a launch record's completion signals (02_launch R33): the dirty lines of the cores of its task go
home. -/
def State.releaseTask (s : State) (t : Task) : State := t.cores.foldl (fun s c => s.flushWhere c.2 (fun _ => true)) s

/-- A line of the task's cores whose write-back has been refused, or is under way, keeps that release waiting
(13_consistency R337). -/
def State.releaseLeft (s : State) (t : Task) : Bool :=
  t.launch.isSome && t.st == .committed &&
    t.cores.any (fun c => (s.coreAt c.2).l1.any L1Line.isDirty || s.wbs.any (fun w => w.core == c.2))

/-- A task moves to RETIRED: its account is settled, its record written unless it was discarded, and what waited for
it goes on (R406, R407, R409). The release of 02_launch R33 writes back the dirty lines of its cores. -/
def State.retireTask (s : State) (t : Task) : State :=
  let r := s.settleEnergy t
  let s := r.1.releaseTask t
  let s := if t.discarded then s else
    s.writeRecord t.part (fieldsNat [(320, s.now % 2 ^ 64), (160, min t.charged (2 ^ 32 - 1)), (128, t.decl.energy),
      (125, t.endCode), (124, boolNat r.2), (112, t.status), (64, min t.attempts (2 ^ 32 - 1)), (32, t.job), (0, t.id)])
  let s := (s.strip t.id).releaseMatrix t.id
  let s := { s with tasks := s.tasks.filter (fun u => u.id != t.id) }
  let s := ((s.countDown t).closeJob t.job).nextHead t
  (s.push (.heldRecordRecheck t.part)).fetchAgain t.part

/-- A host write of ENERGY or ENADD of a partition: they apply before settlements and debits of the same moment (R410,
02_launch R41). -/
def writesEnergy (part : Nat) (e : Event) : Bool :=
  match e with
  | .enadd p _ => p == part
  | .partitionConfigWrite p .energy _ => p == part
  | .controlRegisterWrite die o _ => 12 ≤ die && (o == 0x104000 + 64 * part + 56 || o == 0x104000 + 64 * part + 8)
  | _ => false

def State.energyWriteDue (s : State) (part : Nat) : Bool := s.agenda.any (writesEnergy part)

/-- A task that is COMMITTED, discarded or killed moves to RETIRED; a COMMITTED one of a launch record once its release has
been performed, which is tried again with the refused write-backs. A DONE task is looked at for its commit. -/
def execTaskRetirement (task : Nat) (s : State) : Out :=
  match s.findTask task with
  | none => .next s
  | some t =>
    let r := s.releaseTask t
    .next (if s.energyWriteDue t.part then s.push (.taskRetirement task)
      else if !(t.st = .committed ∨ t.discarded ∨ t.endCode ≠ 0) then (if t.st = .done then s.tryCommit task else s)
      else if r.releaseLeft t then r.after (acNs 4096) (.taskRetirement task)
      else s.retireTask t)

/-- A kill (03_accord R58, R70; 16_recovery R403): the domains that the task opened are abandoned (16_recovery R390). -/
def State.killOne (s : State) (id endCode : Nat) : State :=
  let t := s.taskAt id
  let s := s.strip id
  let s := (s.domains.filter (fun d => d.job == t.job && d.opener == some id)).foldl
    (fun s d => s.dropDomain t.job d.id) s
  (s.modTask id (fun t => { t.unplaced with endCode := endCode, parked := false, staging := [] })).push (.taskRetirement id)

/-- The kill of one task: the children that its speculative attempt has spawned are discarded (01_work R23). -/
def State.kill (s : State) (id endCode : Nat) : State := (s.discardChildren id).killOne id endCode

/-! ## Refusal of a posted store -/

/-- The entry stays REFUSED and the trap joins the slot's pending ones; after the slot's TDONE a note is written and
the entry freed; an entry whose task has been taken back is freed (R208, R209). -/
def execPostedStoreRefusal (core entry : Nat) (code : BitVec 7) (s : State) : Out :=
  match FMap.find (s.coreAt core).journal entry with
  | none => .next s
  | some j =>
    let free := s.modCore core (fun c => { c with journal := FMap.drop entry c.journal })
    match s.findTask j.who.task with
    | none => .next free
    | some t =>
      let x := s.slotAt j.slot
      if x.bind != some j.who || x.ended then
        .next ((if x.ended || t.st = .done then free.noteRefusal t j.va.toNat code.toNat else free).tryCommit t.id)
      else
        let s := s.modCore core (fun c => { c with
          journal := FMap.set entry { j with st := .refused code.toNat, stamp := x.stamp } c.journal })
        let ks := (s.slots.filter (fun e => e.2.bind.any (fun b =>
          b.task == j.who.task && b.j == j.who.j && b.m == j.who.m))).map (·.1)
        .next (s.modSlots ks (fun x => x.post 0x21 (BitVec.ofNat 64 entry)))

end Machine
end Sys2Proof
end

