-- ==== Sys2Proof/Machine/Access.lean ====
section
/-!
DEFINITION. The route of an access of the current slot (08_memory_ops R187, R188, R194, R200, R205, R207): what comes
before an access that bypasses the L1, performing it at once on the core's own local memory, sending it and holding the
slot, posting it through the journal, and the end of an access by its reply.
-/
namespace Sys2Proof
namespace Machine

/-! ## Own windows -/

/-- An SPA as slot `k` means it: for the secondary copy of a checked pair the windows of the primary's core are those
of its own core (15_interrupts R377). -/
def State.homeFor (s : State) (k spa : Nat) : Home :=
  let h := s.home spa
  let c := coreOfSlot k
  if (s.slotAt k).who.secondary && !h.outside && (h.win == .lm || h.win == .tbl || h.win == .reg) &&
      clusterOfCore c == h.clusterNum && h.core == (c + 4) % 8 then
    { h with core := c % 8, key := h.key + (c % 8) * 2 ^ 30 - h.core * 2 ^ 30 }
  else h

/-- The access lies in a window of the slot's own core. -/
def Home.own (h : Home) (k : Nat) (w : Win) : Bool := !h.outside && h.win == w && h.coreNum == coreOfSlot k

/-! ## The message of an access -/

/-- The access of the current slot as a message. -/
def State.msgOf (s : State) (kind : MsgKind) (va : Word) (e : Range) (spa w : Nat) (data : Word) (reg : Fin 32)
    (signed : Bool) : Msg :=
  { id := 0, slot := s.cur, core := coreOfSlot s.cur, asid := s.asidOf s.cur, kind := kind, va := va, spa := spa,
    width := w, data := data, reg := reg, signed := signed, ecg := e.ecg, who := s.curSlot.who }

/-- Both copies of a checked pair, or the slot itself: where a reply is delivered (15_interrupts R378). -/
def State.copiesOf (s : State) (b : Binding) : List Nat :=
  (s.slots.filter (fun e => e.2.bind.any (fun c => c.task == b.task && c.j == b.j && c.m == b.m))).map (·.1)

/-! ## Before an access that bypasses the L1 -/

/-- Writes back and invalidates the lines of the access in the core's own L1, and waits for posted stores of the slot
that it overlaps; then acts (R187, R188). The instruction is held while write-backs are on their way and issues again. -/
def State.bypass (s : State) (va : Word) (spa w : Nat) (act : State → State) : State :=
  let k := s.cur
  let c := coreOfSlot k
  let lines := [spa / 32, (spa + w - 1) / 32].eraseDups
  if s.journalBlocks k va.toNat w || lines.any (s.wbInFlight c) then s.bubble
  else
    let dirty := lines.filter (fun l => ((s.coreAt c).findL l).any L1Line.isDirty)
    if dirty.any s.heldLine then s.stay
    else if !dirty.isEmpty then (dirty.foldl (fun s l => s.startWriteBack c l (some k)) s).modCur (fun x => x.hang .writeback)
    else act (lines.foldl (fun s l => s.modCore c (fun c => c.dropL l)) s)

/-! ## Regions of synchronisation objects (13_consistency R333) -/

/-- The valid range entries of a task's address space on a die, with their numbers. -/
def State.entriesOf (s : State) (die : Nat) (t : Task) : List (Nat × Range) :=
  (s.dieAt die).ranges.filter (fun e => e.1 / 64 == t.asid && e.2.valid)

/-- The object to which a task has a range bound: its own binding, else the range's SYNC field (04_placement R87). -/
def Task.boundObject (t : Task) (e : Nat × Range) : Nat := ((t.binds.find? (fun b => b.1 == e.1)).map (·.2)).getD e.2.sync

/-- The ranges of the region of an object, as the die of the issuing slot translates. -/
def State.regionOf (s : State) (die : Nat) (t : Task) (obj : Nat) : List Range :=
  ((s.entriesOf die t).filter (fun e => t.boundObject e == obj && obj != 0)).map (·.2)

def Range.holdsVa (e : Range) (v : Nat) : Bool := e.base ≤ v / 65536 && v / 65536 ≤ e.limit
def Range.holdsSpa (e : Range) (a : Nat) : Bool :=
  e.phys * 65536 ≤ spaBits a && spaBits a < (e.phys + (e.limit - e.base + 1)) * 65536

/-- Lines and virtual addresses in a region; with no range bound, the region is every address. -/
def State.lineIn (s : State) (die : Nat) (t : Task) (obj line : Nat) : Bool :=
  (s.regionOf die t obj).isEmpty || (s.regionOf die t obj).any (fun e => e.holdsSpa (line * 32))
def State.vaIn (s : State) (die : Nat) (t : Task) (obj v w : Nat) : Bool :=
  (s.regionOf die t obj).isEmpty || (s.regionOf die t obj).any (fun e => e.holdsVa v || e.holdsVa (v + w - 1))

/-- The lines of a region leave a core's L1; dirty bytes are written back first, and a line whose write-back is refused
stays (R336, R438). -/
def State.acquireRegion (s : State) (k obj : Nat) : State :=
  let t := s.slotTask k
  let c := coreOfSlot k
  let s := s.flushWhere c (fun l => s.lineIn (dieOfSlot k) t obj l)
  s.dropClean c (fun l => s.lineIn (dieOfSlot k) t obj l)

/-- Lines of the region are left there, so that the acquire has not ended (R336). -/
def State.regionLeft (s : State) (k obj : Nat) : Bool :=
  (s.coreAt (coreOfSlot k)).l1.any (fun l => s.lineIn (dieOfSlot k) (s.slotTask k) obj l.line)

/-- The invalidation of an acquire, in the cores of both copies of a checked pair. -/
def State.acquired (s : State) (m : Msg) : State := (s.copiesOf m.who).foldl (fun s k => s.acquireRegion k m.va.toNat) s

/-- An acquire whose object has been acquired, but not all of whose region has left the L1. -/
def State.acquireLeft (s : State) (m : Msg) : Bool :=
  match m.kind with
  | .acq _ true => (s.copiesOf m.who).any (fun k => s.acquired m |>.regionLeft k m.va.toNat)
  | _ => false

/-- It stays held with its value: the write-backs that are refused are tried again, and so is its end. -/
def State.holdAcquire (s : State) (m : Msg) (v : Word) : State :=
  let s := s.acquired m
  let ms : List Msg := s.msgs.filter (fun (x : Msg) => x.id != m.id) ++ [{ m with st := .replied v 0 }]
  { s with msgs := ms }.after (acNs 4096) (.replyArrival m.id)

/-! ## The end of an access -/

/-- What a reply gives a register: a loaded value extended, a count of flags ORed into fcsr (R205, R211). -/
def Slot.take (x : Slot) (m : Msg) (v : Word) (fl : Nat) : Slot :=
  let v := match m.kind with
    | .read => extend m.signed m.width (v.toNat % 2 ^ (8 * min m.width 8))
    | _ => v
  (x.setReg m.reg v).raise fl

/-- The value of a decoded load from the codes that its home returned: a table entry for a codebook range. `none` while
an entry is empty (R192). -/
def State.decodedWord (s : State) (k : Nat) (e : Range) (o w : Nat) (codes : Nat) (first : Nat) : Option Nat :=
  let c := s.coreAt (coreOfSlot k)
  (List.range w).foldr (fun i acc =>
    let n := (o + i) / e.elemBytes
    let code := codes / 256 ^ (n - first) % 256
    match acc with
    | none => none
    | some v =>
      if e.codebook then
        let t := e.entryOf n code
        if c.tblFull.contains t then some (v * 256 + c.tblAt t / 256 ^ ((o + i) % 2) % 256) else none
      else some (v * 256 + code)) (some 0)

/-- A held access of slot `k` ends with its value; `held` says whether the slot was waiting for a reply. Floating flags
of XRND that are enabled trap instead; the NV of an XACC of a signalling NaN is raised as it retires (07_numbers R171,
R181). -/
def State.endAccess (s : State) (k : Nat) (m : Msg) (v : Word) (fl : Nat) (held : Bool) : State :=
  let x := s.slotAt k
  let fin : Slot → Slot := if held then Slot.finish else Slot.retire
  let fl := match m.kind with
    | .xacc f => (fmtOf f).snanFlag [(fmtOf f).bits m.data]
    | _ => fl
  let traps := match m.kind with
    | .xrnd _ _ => x.enabledFlags fl != 0
    | _ => false
  if traps then
    let s := s.modSlot k (fun x => (if held then x else x.noteIssue).raise fl)
    s.trapHeld k 0x0D (BitVec.ofNat 64 fl)
  else
    let v := match m.kind with
      | .read => BitVec.ofNat 64 (leNat (s.overlay k m.spa (leBytes m.width v.toNat)))
      | _ => v
    match m.kind with
    | .readCodes e first _ =>
      match s.decodedWord k e (m.va.toNat - e.base * 65536) m.width v.toNat first with
      | some n => s.modSlot k (fun x => fin (x.setReg m.reg (extend m.signed m.width n)))
      | none => s.modSlot k (fun x => if held then x.again else x.bubble)
    | .acq _ wide =>
      let s := if wide then s.acquired m else s
      s.modSlot k (fun x => fin (x.take m v fl))
    | _ => s.modSlot k (fun x => fin (x.take m v fl))

/-- An access that waits at the slot's own local memory: at most one, a second blocks the slot (R200). -/
def State.waitsLocally (s : State) (k : Nat) : Bool :=
  s.msgs.any (fun m => m.slot == k && m.st == .waiting && (s.home m.spa).own k .lm)

/-- A held access: on the slot's own local memory it is performed at issue when its condition holds, and waits there
otherwise; anywhere else it is sent, and the slot held until the reply (R187, R200, R201). -/
def State.heldAccess (s : State) (m : Msg) : State :=
  let k := s.cur
  let h := s.homeFor k m.spa
  if h.own k .lm then
    if s.badFor m h.key then s.bubble.eccFound m.who.task h m.spa 0
    else if m.holds (s.isFull h.key) then
      let r := s.performAt m h.key
      let s := r.1.chargeMsg m
      if s.acquireLeft m then (s.bumpId.holdAcquire { m with id := s.fresh } r.2.1).modCur (fun x => x.hang (.msg s.fresh))
      else s.endAccess k m r.2.1 r.2.2 false
    else if s.waitsLocally k then s.bubble
    else
      let id := s.fresh
      { s.bumpId with msgs := s.msgs ++ [{ m with id := id, st := .waiting }] }.modCur (fun x => x.hang (.msg id))
  else
    let id := s.fresh
    (s.send m).modCur (fun x => x.hang (.msg id))

/-- A marking `LDFE`: the register is pending, the slot runs on (R200). -/
def State.markedAccess (s : State) (m : Msg) : State :=
  let k := s.cur
  let h := s.homeFor k m.spa
  let m := { m with marking := true }
  if h.own k .lm then
    if s.isBad h.key 8 then s.bubble.eccFound m.who.task h m.spa 0
    else if m.holds (s.isFull h.key) then
      let r := s.performAt m h.key
      (r.1.chargeMsg m).modSlot k (fun x => (x.take m r.2.1 0).retire)
    else if s.waitsLocally k then s.bubble
    else
      let id := s.fresh
      { s.bumpId with msgs := s.msgs ++ [{ m with id := id, st := .waiting }] }.modCur
        (fun x => (x.setSt m.reg .pending).retire)
  else (s.send m).modCur (fun x => (x.setSt m.reg .pending).retire)

/-- A posted store: it takes a journal entry and retires; without a free entry the slot is held at it (R207, R370). -/
def State.post (s : State) (m : Msg) (fill : Bool) : State :=
  match s.journalSlot s.cur with
  | none => s.bubble
  | some e =>
    let j : JEntry := { slot := s.cur, va := m.va, width := m.width, data := m.data, fill := fill, who := m.who }
    let s := s.modCore m.core (fun c => { c with journal := FMap.set e j c.journal })
    (s.send { m with journal := some e }).retire

/-! ## Checks of the target (R189 check 5) -/

/-- The target of a plain access: a window that exists; a REG write has 8 bytes, a TBL write at least 2 (R79, R80). -/
def Home.plainOk (h : Home) (store : Bool) (w : Nat) : Bool :=
  h.win != .bad && !(store && h.win == .reg && w != 8) && !(store && h.win == .tbl && w == 1)

/-- Checks an access and its target, then acts on its range and SPA; the first fault found traps. -/
def State.checked (s : State) (va : Word) (w : Nat) (need : Need) (ok : Home → Bool)
    (act : Range → Nat → State → State) : State :=
  match s.checkAccess s.cur va w need with
  | .error t => s.trapOf t
  | .ok (e, spa) => if ok (s.home spa) then act e spa s else s.trap 0x0C va

end Machine
end Sys2Proof
end

