-- ==== Sys2Proof/Machine/LoadStore.lean ====
section
/-!
DEFINITION. Plain loads and stores (08_memory_ops R187 to R193): the local windows, the L1, messages and the journal,
decoded ranges, and the speculative write buffer (01_work R22).
-/
namespace Sys2Proof
namespace Machine

/-- The address of an M-format access (R190). -/
def State.memAddr (s : State) (a : Fin 32) (i : Fin 4096) : Word := s.reg a + simm 12 i

/-! ## Loads -/

/-- A load performed in the core, from its own LM or TBL window. -/
def State.loadOwn (s : State) (m : Msg) (h : Home) : State :=
  if h.win = .lm ∧ s.isBad h.key m.width then s.bubble.eccFound m.who.task h m.spa 0
  else (s.chargeMsg m).endAccess s.cur m (BitVec.ofNat 64 (leNat (s.readBytes h m.width))) 0 false

/-- The access of an L1 that misses: the line is asked for and the slot held (R193). -/
def State.missLine (s : State) (a : Access) : State :=
  (s.askLine (coreOfSlot s.cur) (a.spa / 32)).modCur (fun x => x.hang (.fill (a.spa / 32) a))

/-- A plain load of raw bytes by its route (Table 8-1). -/
def State.loadRaw (s : State) (m : Msg) : State :=
  let k := s.cur
  let h := s.homeFor k m.spa
  if s.journalBlocks k m.va.toNat m.width then s.bubble
  else if h.own k .lm || h.own k .tbl then s.loadOwn m h
  else if !s.tagRoom k m.spa then s.block
  else if h.win = .dram then
    let a : Access := ⟨false, m.va, m.spa, m.width, m.reg, m.signed, 0, m.ecg, false⟩
    match (s.coreAt (coreOfSlot k)).findL (m.spa / 32) with
    | some _ => (s.onLine k a).retire
    | none => s.missLine a
  else (s.tagRead k m.spa).heldAccess m

/-- A byte of a present L1 line. -/
def State.lineByte (s : State) (core spa : Nat) : Byte :=
  match (s.coreAt core).findL (spa / 32) with
  | some l => l.bytes.getD (spa % 32) 0
  | none => 0

/-- A decoded load whose codes are known: held until the table entries it needs are full (R192). -/
def State.loadCodes (s : State) (m : Msg) (e : Range) (first codes : Nat) : State :=
  match s.decodedWord s.cur e (m.va.toNat - e.base * 65536) m.width codes first with
  | some n => (s.setReg m.reg (extend m.signed m.width n)).retire
  | none => s.bubble

/-- A plain load from a decoded range (R191): the raw bytes come by the route of their own address. -/
def State.loadDecoded (s : State) (m : Msg) (e : Range) : State :=
  let k := s.cur
  let c := coreOfSlot k
  let o := m.va.toNat - e.base * 65536
  let first := o / e.elemBytes
  let count := (o + m.width - 1) / e.elemBytes - first + 1
  let raw := ((List.range count).flatMap (fun i => e.rawBytes (first + i))).eraseDups
  let p := e.start
  let h := s.homeFor k p
  if raw.any (fun i => s.journalBlocks k (e.base * 65536 + i) 1) then s.bubble
  else if h.own k .lm then
    if raw.any (fun i => s.isBad (h.key + i) 1) then s.bubble.eccFound m.who.task h p 0
    else s.loadCodes m e first (packCodes e (fun i => Memory.read s.mem (h.key + i)) first count)
  else if raw.any (fun i => !s.tagRoom k (p + i)) then s.block
  else if h.win = .dram then
    match raw.find? (fun i => ((s.coreAt c).findL ((p + i) / 32)).isNone) with
    | some i => s.missLine ⟨false, m.va, p + i, 1, 0, false, 0, m.ecg, true⟩
    | none =>
      let rd := fun i => ((s.overlay k (p + i) [s.lineByte c (p + i)]).head?).getD 0
      let codes := packCodes e rd first count
      let s := raw.foldl (fun s i => (s.tagRead k (p + i)).modCore c (fun c => c.touchL ((p + i) / 32))) s
      s.loadCodes m e first codes
  else (raw.foldl (fun s i => s.tagRead k (p + i)) s).heldAccess
    { m with kind := .readCodes e first count, spa := p + raw.headD 0 }

/-- The target of a plain load: that of the address itself, or, in a decoded range, of each raw byte (R187, R191). -/
def State.loadTarget (s : State) (e : Range) (va w spa : Nat) : Bool :=
  if e.decoded then
    let o := va - e.base * 65536
    let first := o / e.elemBytes
    let count := (o + w - 1) / e.elemBytes - first + 1
    (List.range count).all (fun i => (e.rawBytes (first + i)).all (fun j =>
      (s.home (e.start + j)).plainOk false 1))
  else (s.home spa).plainOk false w

/-- A plain load (R190): `LB`, `LBS`, `LH`, `LHS`, `LW`, `LWS`, `LD`. -/
def State.plainLoad (s : State) (d a : Fin 32) (t : Bool) (i : Fin 4096) (w : Nat) (signed : Bool) : Out :=
  s.gated [(a, t)] d false (fun s =>
    let va := s.memAddr a i
    s.checked va w .read (fun _ => true) (fun e spa s =>
      let m := s.msgOf .read va e spa w 0 d signed
      if !s.loadTarget e va.toNat w spa then s.trap 0x0C va
      else if e.decoded then s.loadDecoded m e else s.loadRaw m))

def execLb (d a : Fin 32) (t : Bool) (i : Fin 4096) (s : State) : Out := s.plainLoad d a t i 1 false
def execLbs (d a : Fin 32) (t : Bool) (i : Fin 4096) (s : State) : Out := s.plainLoad d a t i 1 true
def execLh (d a : Fin 32) (t : Bool) (i : Fin 4096) (s : State) : Out := s.plainLoad d a t i 2 false
def execLhs (d a : Fin 32) (t : Bool) (i : Fin 4096) (s : State) : Out := s.plainLoad d a t i 2 true
def execLw (d a : Fin 32) (t : Bool) (i : Fin 4096) (s : State) : Out := s.plainLoad d a t i 4 false
def execLws (d a : Fin 32) (t : Bool) (i : Fin 4096) (s : State) : Out := s.plainLoad d a t i 4 true
def execLd (d a : Fin 32) (t : Bool) (i : Fin 4096) (s : State) : Out := s.plainLoad d a t i 8 false

/-! ## Stores -/

/-- A plain store by its route (Table 8-1). -/
def State.storeRaw (s : State) (m : Msg) : State :=
  let k := s.cur
  let h := s.homeFor k m.spa
  let bs := leBytes m.width m.data.toNat
  if h.own k .lm then ((s.chargeMsg m).store h.key bs).retire
  else if h.own k .tbl then ((s.chargeMsg m).modCore h.coreNum (fun c => c.writeTbl h.off bs)).retire
  else if s.buffers k m.spa then
    if s.bufferRoom k m.spa then (s.bufferStore k m.va.toNat m.spa bs).retire else s.block
  else if h.win = .dram then
    let a : Access := ⟨true, m.va, m.spa, m.width, 0, false, m.data, m.ecg, false⟩
    match (s.coreAt (coreOfSlot k)).findL (m.spa / 32) with
    | some _ => (s.onLine k a).retire
    | none => s.missLine a
  else s.post m false

/-- A plain store (R190): the low bytes of rt. Full/empty bits are neither tested nor changed. -/
def State.plainStore (s : State) (d a : Fin 32) (t : Bool) (i : Fin 4096) (w : Nat) : Out :=
  s.gated [(d, t), (a, t)] 0 false (fun s =>
    let va := s.memAddr a i
    s.checked va w .write (fun h => h.plainOk true w) (fun e spa s =>
      s.storeRaw (s.msgOf .write va e spa w (BitVec.ofNat 64 ((s.reg d).toNat % 2 ^ (8 * w))) 0 false)))

def execSb (d a : Fin 32) (t : Bool) (i : Fin 4096) (s : State) : Out := s.plainStore d a t i 1
def execSh (d a : Fin 32) (t : Bool) (i : Fin 4096) (s : State) : Out := s.plainStore d a t i 2
def execSw (d a : Fin 32) (t : Bool) (i : Fin 4096) (s : State) : Out := s.plainStore d a t i 4
def execSd (d a : Fin 32) (t : Bool) (i : Fin 4096) (s : State) : Out := s.plainStore d a t i 8

end Machine
end Sys2Proof
end

