-- ==== Sys2Proof/Machine/BitBuffer.lean ====
section
/-!
DEFINITION. The bit buffer (08_memory_ops R212 to R214): refill from local memory, taking bits, emitting and flushing.
-/
namespace Sys2Proof
namespace Machine

/-- The local address of `n` bytes of one word that the buffer reads or writes at `v`: they must translate with the right to
the core's own LM window (R212). -/
def State.bitAddr (s : State) (v n : Nat) (need : Need) : Except TrapInfo Nat :=
  let va := BitVec.ofNat 64 v
  match s.translate (dieOfSlot s.cur) (s.asidOf s.cur) v n with
  | none => .error ⟨0x09, va⟩
  | some (e, a) =>
    let h := s.homeFor s.cur a
    if !need.met e then .error ⟨0x0A, va⟩
    else if need == .write && e.ecg != 0 then .error ⟨0x0B, va⟩
    else if !h.own s.cur .lm then .error ⟨0x0C, va⟩
    else .ok h.key

/-- `n` bytes from `v` on, cut at the local-memory words that they touch: address and length. -/
def bitPieces (v n : Nat) : List (Nat × Nat) :=
  (List.range ((v % 8 + n + 7) / 8)).map (fun i =>
    let lo := max v (v / 8 * 8 + 8 * i)
    (lo, min (v + n) (v / 8 * 8 + 8 * i + 8) - lo))

/-- The local address and length of each piece: every word translates by itself, and the first failure is the instruction's. -/
def State.bitAddrs (s : State) (need : Need) : List (Nat × Nat) → Except TrapInfo (List (Nat × Nat))
  | [] => .ok []
  | p :: ps =>
    match s.bitAddr p.1 p.2 need, s.bitAddrs need ps with
    | .error t, _ => .error t
    | .ok _, .error t => .error t
    | .ok k, .ok ks => .ok ((k, p.2) :: ks)

/-- Bytes read, and written, in pieces. -/
def State.bitRead (s : State) (ps : List (Nat × Nat)) : List Byte := ps.flatMap (fun p => Memory.readList s.mem p.1 p.2)
def State.bitWrite (s : State) : List (Nat × Nat) → List Byte → State
  | [], _ => s
  | p :: ps, bs => (s.store p.1 (bs.take p.2)).bitWrite ps (bs.drop p.2)

/-- The window with `n` bits of `v` above bit `cnt` − 1. -/
def BitBuf.append (b : BitBuf) (n v : Nat) : BitBuf :=
  { b with win := BitVec.ofNat 128 (b.win.toNat % 2 ^ b.cnt + v % 2 ^ n * 2 ^ b.cnt), cnt := b.cnt + n }

/-- The refill of R212, with the number of words read. Two rounds fill the window. -/
def State.refillFuel (s : State) : Nat → BitBuf → Nat → Except TrapInfo (BitBuf × Nat)
  | 0, b, k => .ok (b, k)
  | n + 1, b, k =>
    if b.cnt ≤ 64 ∧ b.ptr.toNat < b.lim.toNat then
      let m := min 8 (b.lim.toNat - b.ptr.toNat)
      match s.bitAddrs .read (bitPieces b.ptr.toNat m) with
      | .error t => .error t
      | .ok ps =>
        let c := b.append (8 * m) (leNat (s.bitRead ps))
        s.refillFuel n { c with ptr := b.ptr + BitVec.ofNat 48 m } (k + ps.length)
    else .ok (b, k)

/-- Ends a bit-buffer instruction: one that read or wrote two words costs its slot one turn (R214). -/
def State.bitEnd (s : State) (b : BitBuf) (words : Nat) : State :=
  (s.modCur (fun x => { x with bb := b })).retire.modCur
    (fun x => if words < 2 then x else { x with hold := some (.turns 1) })

/-- Bits discarded from the bottom of the window. -/
def BitBuf.discard (b : BitBuf) (n : Nat) : BitBuf := { b with win := b.win >>> n, cnt := b.cnt - n }

/-- Refills when fewer than `n` bits are valid, then acts with the buffer; fault code 1 when they do not suffice. -/
def State.withBits (s : State) (n : Nat) (act : BitBuf → Nat → State → State) : State :=
  let b := s.curSlot.bb
  match if b.cnt < n then s.refillFuel 3 b 0 else .ok (b, 0) with
  | .error t => s.trapOf t
  | .ok (b', k) => if b'.cnt < n then s.trap 0x11 1 else act b' k s

def execBbinit (a b : Fin 32) (t u : Bool) (s : State) : Out :=
  s.gated [(a, t), (b, u)] 0 false (fun s =>
    let p := s.reg a
    let l := s.reg b
    if p.toNat % 8 ≠ 0 then s.trap 0x08 p
    else if l.toNat < p.toNat then s.trap 0x11 3
    else (s.modCur (fun x => { x with bb := { ptr := p.setWidth 48, lim := l.setWidth 48 } })).retire)

def execBbget (d : Fin 32) (n : Fin 64) (s : State) : Out :=
  s.gated [] d false (fun s => s.withBits (n.val + 1) (fun b k s =>
    (s.setReg d (BitVec.ofNat 64 (b.win.toNat % 2 ^ (n.val + 1)))).bitEnd (b.discard (n.val + 1)) k))

def execBbpeek (d : Fin 32) (n : Fin 64) (s : State) : Out :=
  s.gated [] d false (fun s => s.withBits (n.val + 1) (fun b k s =>
    (s.setReg d (BitVec.ofNat 64 (b.win.toNat % 2 ^ (n.val + 1)))).bitEnd b k))

def execBbskip (n : Fin 64) (s : State) : Out :=
  s.gated [] 0 false (fun s => s.withBits (n.val + 1) (fun b k s => s.bitEnd (b.discard (n.val + 1)) k))

/-- The bits up to the next multiple of `n` of the read position 8 · ptr − cnt (R213). -/
def BitBuf.toAlign (b : BitBuf) (n : Nat) : Nat := (((b.cnt : Int) - 8 * b.ptr.toNat) % n).toNat

def execBbalign (n : Fin 64) (s : State) : Out :=
  s.gated [] 0 false (fun s =>
    let d := s.curSlot.bb.toAlign (n.val + 1)
    s.withBits d (fun b k s => s.bitEnd (b.discard d) k))

def execBbemit (a : Fin 32) (t : Bool) (n : Fin 64) (s : State) : Out :=
  s.gated [(a, t)] 0 false (fun s =>
    let b := s.curSlot.bb
    if 128 < b.cnt + (n.val + 1) then s.trap 0x11 4
    else
      let c := b.append (n.val + 1) (s.regNat a)
      if c.cnt < 64 then s.bitEnd c 0
      else if c.lim.toNat < c.ptr.toNat + 8 then s.trap 0x11 2
      else match s.bitAddrs .write (bitPieces c.ptr.toNat 8) with
        | .error t => s.trapOf t
        | .ok ps =>
          (s.bitWrite ps (leBytes 8 (c.win.toNat % 2 ^ 64))).bitEnd { (c.discard 64) with ptr := c.ptr + 8 } ps.length)

def execBbflush (s : State) : Out :=
  s.gated [] 0 false (fun s =>
    let b := s.curSlot.bb
    let k := (b.cnt + 7) / 8
    let done : BitBuf := { b with win := 0, cnt := 0, ptr := b.ptr + BitVec.ofNat 48 k }
    if k = 0 then s.bitEnd done 0
    else if b.lim.toNat < b.ptr.toNat + k then s.trap 0x11 2
    else match s.bitAddrs .write (bitPieces b.ptr.toNat k) with
      | .error t => s.trapOf t
      | .ok ps => (s.bitWrite ps (leBytes k (b.win.toNat % 2 ^ b.cnt))).bitEnd done ps.length)

def execBbtell (d : Fin 32) (s : State) : Out :=
  s.gated [] d false (fun s =>
    (s.setReg d (BitVec.ofNat 64 (s.curSlot.bb.ptr.toNat * 2 ^ 8 + s.curSlot.bb.cnt))).retire)

end Machine
end Sys2Proof
end

