-- ==== Sys2Proof/Machine/BitField.lean ====
section
/-!
DEFINITION. The bit-field instructions (06_scalar R147). `w` is the width minus 1 and `p` the position.
-/
namespace Sys2Proof
namespace Machine

/-- The mask of the low `w + 1` bits. -/
def fieldMask (w : Fin 64) : Word := BitVec.ofNat 64 (2 ^ (w.val + 1) - 1)

def execBfx (d a : Fin 32) (t : Bool) (w p : Fin 64) (s : State) : Out :=
  s.unary d a t (fun x => (x >>> p.val) &&& fieldMask w)
def execBfxs (d a : Fin 32) (t : Bool) (w p : Fin 64) (s : State) : Out :=
  s.unary d a t (fun x => sext64 ((x >>> p.val) &&& fieldMask w).toNat (w.val + 1))

/-- `BFI` reads rd too, which blocks on empty. -/
def execBfi (d a : Fin 32) (t : Bool) (w p : Fin 64) (s : State) : Out :=
  s.gated [(a, t), (d, false)] d false (fun s =>
    (s.setReg d ((s.reg d &&& ~~~ (fieldMask w <<< p.val)) ||| ((s.reg a &&& fieldMask w) <<< p.val))).retire)

end Machine
end Sys2Proof
end

