-- ==== Sys2Proof/Machine/Sync.lean ====
section
/-!
DEFINITION. The synchronising instructions (13_consistency R331 to R339): scopes, bindings, acquire, release, fence and
the join of engine queues.
-/
namespace Sys2Proof
namespace Machine

/-! ## Scopes (R331) -/

/-- The object's home lies inside the issuing slot's instance of the scope (Table 13-1). No record or register names the
packages of a job: at SYSTEM the model takes every package as one of them (log entry 102). -/
def State.inScope (s : State) (k scope spa : Nat) (h : Home) : Bool :=
  let own := !spaFabric spa || spaPkg spa == s.fabric.coord || s.standsFor (spaPkg spa)
  match scope with
  | 0 => (s.homeFor k spa).own k .lm
  | 1 => !h.outside && h.win == .lm && h.clusterNum == clusterOfSlot k
  | 2 => !h.outside && h.synchronises && h.die == dieOfSlot k
  | 3 => own && h.synchronises
  | _ => h.synchronises

/-- Checks a synchronisation object: an access of 8 bytes, and its scope as check 5 of R189. -/
def State.syncObject (s : State) (a : Fin 32) (scope : Nat) (need : Need) (act : Range → Nat → State → State) : State :=
  let va := s.reg a
  match s.checkAccess s.cur va 8 need with
  | .error t => s.trapOf t
  | .ok (e, spa) => if s.inScope s.cur scope spa (s.home spa) then act e spa s else s.trap 0x0C va

/-! ## Writing the slot's writes home -/

/-- Starts the write-back of every dirty line that a test names and holds the slot until they are acknowledged, or
acts when there is none (R337, R438). They leave in the order in which the L1 lists its lines, the one used last first, so
that one's refusal is the first; the rules name no order (log entry 22). -/
def State.afterWriteBack (s : State) (p : Nat → Bool) (act : State → State) : State :=
  let c := coreOfSlot s.cur
  let dirty := (s.coreAt c).l1.filter (fun l => l.isDirty && p l.line)
  if s.wbs.any (fun w => w.core == c && p w.line) then s.bubble
  else if dirty.any (fun l => s.heldLine l.line) then s.stay
  else if dirty.isEmpty then act s
  else (dirty.foldl (fun s l => s.startWriteBack c l.line (some s.cur)) s).modCur (fun x => x.hang .writeback)

/-- Posted stores of the slot that a test names are still on their way. -/
def State.postsLeft (s : State) (p : Nat → Nat → Bool) : Bool :=
  (s.coreAt (coreOfSlot s.cur)).journal.any (fun e => e.2.slot == s.cur && e.2.st == .sent && p e.2.va.toNat e.2.width)

/-! ## The instructions -/

/-- `ACQ` (R336): the region's dirty bytes are written back, then the object is acquired; with the reply the region's
lines are invalidated. -/
def execAcq (d a : Fin 32) (sc : Fin 8) (s : State) : Out :=
  s.gated [(a, false)] d true (fun s =>
    s.syncObject a sc.val (if d = 0 then .read else .both) (fun e spa s =>
      let va := s.reg a
      let t := s.slotTask s.cur
      s.afterWriteBack (fun l => sc.val != 0 && s.lineIn (dieOfSlot s.cur) t va.toNat l) (fun s =>
        s.bypass va spa 8 (fun s =>
          s.heldAccess (s.msgOf (.acq (d != 0) (sc.val != 0)) va e spa 8 0 d false)))))

/-- `REL` (R337): write-backs of the region, posted stores of the region, then the fill or mark. -/
def execRel (d a : Fin 32) (sc : Fin 8) (s : State) : Out :=
  s.gated [(a, false), (d, false)] 0 true (fun s =>
    s.syncObject a sc.val (if d = 0 then .read else .write) (fun e spa s =>
      let va := s.reg a
      let t := s.slotTask s.cur
      s.afterWriteBack (fun l => sc.val != 0 && s.lineIn (dieOfSlot s.cur) t va.toNat l) (fun s =>
        if s.postsLeft (fun v w => s.vaIn (dieOfSlot s.cur) t va.toNat v w) then s.stay
        else s.bypass va spa 8 (fun s =>
          s.heldAccess (s.msgOf (if d = 0 then .relMark else .relFill) va e spa 8 (s.reg d) 0 false)))))

/-- `FENCE` (R338). -/
def execFence (sc : Fin 8) (s : State) : Out :=
  s.gated [] 0 true (fun s =>
    s.afterWriteBack (fun _ => sc.val != 0) (fun s =>
      if s.postsLeft (fun _ _ => true) then s.stay
      else if sc.val = 0 then s.retire
      else (s.modCore (coreOfSlot s.cur) (fun c => { c with l1 := [] })).retire))

/-- `BIND` (R334): the range entry is the one that translates for the issuing slot. -/
def execBind (d a : Fin 32) (s : State) : Out :=
  s.gated [(d, false), (a, false)] 0 true (fun s =>
    let t := s.slotTask s.cur
    let v := (s.reg d).toNat
    let obj := (s.reg a).toNat
    match (s.entriesOf (dieOfSlot s.cur) t).find? (fun e => v < 2 ^ 48 && e.2.holdsVa v) with
    | none => s.trap 0x19 2
    | some e =>
      let rest := t.binds.filter (fun b => b.1 != e.1)
      if obj = 0 then (s.modTask t.id (fun t => { t with binds := rest })).retire
      else if obj % 8 ≠ 0 then s.trap 0x08 (s.reg a)
      else if rest.length = t.binds.length ∧ 8 ≤ t.binds.length then s.trap 0x19 1
      else (s.modTask t.id (fun t => { t with binds := rest ++ [(e.1, obj)] })).retire)

/-! ## QFENCE (R339) -/

/-- The commands in the named queues of a core (Table 12-1); an `MTILE` that runs stands in the matrix queue (10_matrix
R256). -/
def State.queuedIn (s : State) (core mask : Nat) : List Nat :=
  let c := s.coreAt core
  let copies := (List.range 8).flatMap (fun q =>
    if bitAt mask q then (FMap.get [] c.queues q).filterMap (fun e =>
      match e with
      | .cmd id => some id
      | .join _ => none) else [])
  let mats := if bitAt mask 8 then
      (c.mat.queue.filter (fun x => x.join.isNone)).map (·.id) ++ (c.mat.run.filter (fun r => r.slot.isSome)).toList.map (·.cmd)
    else []
  let xfms := if bitAt mask 9 then
      ((s.clusterAt (clusterOfCore core)).xfm.filter (fun r => r.core == core)).map (·.id) else []
  copies ++ mats ++ xfms

/-- A join entry is open: a command that was ahead of it is left. -/
def State.joinOpen (s : State) (id : Nat) : Bool :=
  match s.joins.find? (fun j => j.id == id) with
  | none => false
  | some j => j.ahead.any (fun n =>
      s.cmds.any (fun x => x.id == n) ||
      (s.coreAt j.core).mat.queue.any (fun x => x.id == n) ||
      (s.coreAt j.core).mat.run.any (fun r => r.cmd == n) ||
      (s.clusterAt (clusterOfCore j.core)).xfm.any (fun r => r.id == n))

/-- An entry of a copy queue occupies its place: a join entry does so until it resolves (R339). -/
def State.copyEntryOpen (s : State) (e : QEntry) : Bool := match e with | .cmd _ => true | .join id => s.joinOpen id
/-- The same of an entry of a matrix queue. -/
def State.matEntryOpen (s : State) (x : MatCmd) : Bool := x.join.all s.joinOpen

/-- Entries that a copy queue, and the matrix queue, hold. -/
def State.copyUse (s : State) (core q : Nat) : Nat := (FMap.get [] (s.coreAt core).queues q).countP s.copyEntryOpen
def State.matUse (s : State) (core : Nat) : Nat := (s.coreAt core).mat.queue.countP s.matEntryOpen

/-- Every named queue has a free entry. -/
def State.queuesFree (s : State) (core mask : Nat) : Bool :=
  (List.range 8).all (fun q => !bitAt mask q || s.copyUse core q < 16) && (!bitAt mask 8 || s.matUse core < 16)

/-- `QFENCE`: a join entry in each named queue, all at once (R339). In a stopped matrix queue it resolves at once, so
none is placed there. -/
def execQfence (m : Fin 4096) (s : State) : Out :=
  s.gated [] 0 true (fun s =>
    let c := coreOfSlot s.cur
    if !s.queuesFree c m.val then s.bubble
    else
      let id := s.fresh
      let j : Join := { id := id, core := c, ahead := s.queuedIn c m.val, port := bitAt m.val 9 }
      let put := fun (c : Core) =>
        let qs := (List.range 8).foldl (fun qs q =>
          if bitAt m.val q then FMap.set q ((FMap.get [] qs q).filter s.copyEntryOpen ++ [.join id]) qs else qs) c.queues
        let mq : List MatCmd := if bitAt m.val 8 && !c.mat.halted then
            c.mat.queue.filter s.matEntryOpen ++ [{ fn := 0, who := s.curSlot.who, token := 0, ra := 0, rb := 0, join := some id }]
          else c.mat.queue
        { c with queues := qs, mat := { c.mat with queue := mq } }
      ({ s.bumpId with joins := s.joins.filter (fun (x : Join) => s.joinOpen x.id) ++ [j] }.modCore c put).retire)

end Machine
end Sys2Proof
end

