-- ==== Sys2Proof/Machine/Cache.lean ====
section
/-!
DEFINITION. The cache instructions: refetch and pinning of code lines (05_encoding R126 to R128), prefetch, write-back
and invalidation of data lines (08_memory_ops R196, R438).
-/
namespace Sys2Proof
namespace Machine

/-- The lines of an S-format cache instruction: virtual addresses from g[rs1] AND NOT 31 on. -/
def State.cacheLines (s : State) (a : Fin 32) (n : Fin 512) : List Nat :=
  (List.range (n.val + 1)).map (fun i => (s.regNat a / 32 * 32 + 32 * i) % 2 ^ 64)

/-! ## Code lines -/

/-- The target cores: the issuing core, or every core of its cluster. -/
def State.codeTargets (s : State) (cluster : Bool) : List Nat :=
  let c := coreOfSlot s.cur
  if cluster then coresOfCluster (clusterOfCore c) else [c]

/-- The SPA of a code line with X rights. -/
def State.codeLine (s : State) (v : Nat) : Option Nat :=
  match s.translate (dieOfSlot s.cur) (s.asidOf s.cur) v 32 with
  | some (e, a) => if e.x then some a else none
  | none => none

/-- Posts the refetch of a line into a core: a fetch of it by the issuing slot waits (R126). -/
def State.refetch (s : State) (c v : Nat) : State :=
  match s.codeLine v with
  | none => s
  | some a =>
    let asid := s.asidOf s.cur
    let k := s.cur
    let s := s.modCore c (fun c => { c with icache := c.icache.map (fun l =>
      if l.asid = asid ∧ l.line = v / 32 then { l with refetch := k :: l.refetch } else l) })
    s.askFill (clusterOfCore c) (a / 32) (.icacheFill c asid (v / 32))

/-- Another slot of the core holds an `IPIN` that has issued: the core carries out code instructions in issue order (R128). -/
def State.codeHeld (s : State) : Bool :=
  (slotsOfCore (coreOfSlot s.cur)).any (fun k => k != s.cur && (s.slotAt k).reissue &&
    match s.fetch k with
    | .word w => match decode w with
      | some (.ipin ..) => true
      | _ => false
    | _ => false)

def execIpf (a : Fin 32) (l : Bool) (n : Fin 512) (s : State) : Out :=
  s.gated [(a, false)] 0 false (fun s =>
    if s.codeHeld then s.bubble else
    ((s.codeTargets l).foldl (fun s c => (s.cacheLines a n).foldl (fun s v => s.refetch c v) s) s).retire)

/-- Pinning the lines would leave more than 2 pinned lines in some set of the core (R127). -/
def Core.overPinned (c : Core) (asid : Nat) (lines : List Nat) : Bool :=
  lines.any (fun l =>
    let held := (c.icache.filter (fun x => x.pin.isSome && iset x.line == iset l)).map (fun x => (x.asid, x.line))
    2 < (held ++ (lines.filter (fun m => iset m == iset l)).map (fun m => (asid, m))).eraseDups.length)

/-- A line filled into a core when absent, and pinned for the partition. The lines that are present are pinned first, so that
no fill of the range evicts one of them. -/
def State.pinLine (s : State) (c asid part line : Nat) (ws : List Nat) : State :=
  s.modCore c (fun c =>
    let c := if (c.findI asid line).isSome then c else c.putI asid line ws
    { c with icache := c.icache.map (fun l =>
        if l.asid = asid ∧ l.line = line ∧ l.pin.isNone then { l with pin := some part } else l) })

/-- A fill or refetch of a code line is on its way into a core. -/
def State.fillPending (s : State) (c asid line : Nat) : Bool :=
  let e := Event.icacheFill c asid line
  (s.clusterAt (clusterOfCore c)).merges.any (fun m => m.lines.any (fun x => x.2 == e)) || s.agenda.contains e ||
    s.timers.any (fun t => t.ev == e)

/-- `IPIN` (R127). Only lines absent from a core that pins the range are filled: one whose place is not DRAM raises the access
fault of a fetch, and a negative reply the reply trap (R122). A refetch of one of the lines that is under way is awaited
(R128), as is a line of a chunk that awaits its rebuild (16_recovery R399). A line without any translation raises the rights
fault that the pseudocode of R127 names, and not the translation fault of 04_placement R84 (log entry 29). -/
def execIpin (d a : Fin 32) (l : Bool) (n : Fin 512) (s : State) : Out :=
  s.gated [(a, false)] d false (fun s =>
    if s.codeHeld then s.bubble else
    let vs := s.cacheLines a n
    let asid := s.asidOf s.cur
    let part := (s.slotTask s.cur).part
    match vs.find? (fun v => (s.codeLine v).isNone) with
    | some v => s.trap 0x0A (BitVec.ofNat 64 v)
    | none =>
      let lines : List (Nat × Nat) := vs.map (fun v => (v, (s.codeLine v).getD 0))
      let cs := s.codeTargets l
      let bad := cs.filter (fun c => (s.coreAt c).overPinned asid (lines.map (fun x => x.1 / 32)))
      let good := cs.filter (fun c => !bad.contains c)
      let fills := lines.filter (fun x => good.any (fun c => ((s.coreAt c).findI asid (x.1 / 32)).isNone))
      match fills.find? (fun x => (s.home x.2).win != .dram) with
      | some x => s.trap 0x0C (BitVec.ofNat 64 x.1)
      | none =>
        if good.any (fun c => lines.any (fun x => s.fillPending c asid (x.1 / 32))) ||
            fills.any (fun x => s.lostHome (s.home x.2)) then s.stay
        else match fills.findSome? (fun x => s.lostChunk x.2) with
        | some d => (s.awaitChunk d).stay
        | none => match fills.find? (fun x => (s.readLine x.2).1 != 0) with
        | some x => s.trap 0x0E (replyVal (s.readLine x.2).1 (BitVec.ofNat 64 x.1))
        | none =>
          let fail := bad.foldl (fun f c => f + 2 ^ (c % 8)) 0
          let here := fun (s : State) (c : Nat) (x : Nat × Nat) => ((s.coreAt c).findI asid (x.1 / 32)).isSome
          let s := good.foldl (fun s' c =>
            (lines.filter (here s c) ++ lines.filter (fun x => !here s c x)).foldl (fun s' x =>
              s'.pinLine c asid part (x.1 / 32) (wordsOf (s.readLine x.2).2)) s') s
          (s.setReg d (BitVec.ofNat 64 (boolNat (fail != 0) * 2 ^ 63 + fail))).retire)

def execIunpin (a : Fin 32) (l : Bool) (n : Fin 512) (s : State) : Out :=
  s.gated [(a, false)] 0 false (fun s =>
    if s.codeHeld then s.bubble else
    let lines := (s.cacheLines a n).map (fun v => v / 32)
    let asid := s.asidOf s.cur
    let part := (s.slotTask s.cur).part
    ((s.codeTargets l).foldl (fun s c => s.modCore c (fun c => { c with icache := c.icache.map (fun x =>
      if x.asid = asid ∧ x.pin = some part ∧ lines.contains x.line then { x with pin := none } else x) })) s).retire)

/-! ## Data lines -/

/-- The data lines of the instruction that translate to CLASS 00 memory: range and line number (R196). -/
def State.dataLines (s : State) (a : Fin 32) (n : Fin 512) : List (Range × Nat) :=
  (s.cacheLines a n).filterMap (fun v =>
    match s.translate (dieOfSlot s.cur) (s.asidOf s.cur) v 32 with
    | some (e, spa) => if (s.home spa).win = .dram then some (e, spa / 32) else none
    | none => none)

/-- `DPF`: absent lines with R rights are asked for. -/
def execDpf (a : Fin 32) (n : Fin 512) (s : State) : Out :=
  s.gated [(a, false)] 0 false (fun s =>
    let c := coreOfSlot s.cur
    (((s.dataLines a n).filter (fun x => x.1.r && ((s.coreAt c).findL x.2).isNone)).foldl
      (fun s x => s.askLine c x.2) s).retire)

/-- `CWB`: held until every write-back is acknowledged; the bytes dirty at its issue are written back once. -/
def execCwb (a : Fin 32) (n : Fin 512) (s : State) : Out :=
  s.gated [(a, false)] 0 true (fun s =>
    let lines := (s.dataLines a n).map (·.2)
    if s.curSlot.reissue then s.retire
    else s.afterWriteBack (fun l => lines.any (sameLine l)) (fun s => s.retire))

/-- `CINV`: lines to be written back first are those of WB = 1 and those of ranges without W rights. -/
def execCinv (a : Fin 32) (w : Bool) (n : Fin 512) (s : State) : Out :=
  s.gated [(a, false)] 0 false (fun s =>
    let xs := s.dataLines a n
    let first := (xs.filter (fun x => w || !x.1.w)).map (·.2)
    s.afterWriteBack (fun l => first.any (sameLine l)) (fun s =>
      (s.modCore (coreOfSlot s.cur) (fun c =>
        { c with l1 := c.l1.filter (fun l => !(xs.any (fun x => sameLine x.2 l.line))) })).retire))

end Machine
end Sys2Proof
end

