-- ==== Sys2Proof/Machine/Control.lean ====
section
/-!
DEFINITION. Branches and jumps (06_scalar R148 to R150, 05_encoding R123), and the return from a trap (06_scalar
R153).
-/
namespace Sys2Proof
namespace Machine

/-- The instruction retires and the slot goes on at `v`. -/
def State.goTo (s : State) (v : Word) : State := s.modCur (fun x => { x.noteIssue with pc := v })

/-- A jump to `v` after the target check: a fault leaves everything as it is (R123); else rd, if any, takes the
address of the next instruction. -/
def State.jump (s : State) (v : Word) (link : Fin 32) : State :=
  match s.checkTarget s.cur v with
  | some f => s.trapOf f
  | none => (s.setReg link (s.curSlot.pc + 4)).goTo v

/-- A branch: both sources block on empty; one that is not taken checks nothing (R148). -/
def State.branch (s : State) (a b : Fin 32) (o : Fin 65536) (taken : Word → Word → Bool) : Out :=
  s.gated [(a, false), (b, false)] 0 false (fun s =>
    if taken (s.reg a) (s.reg b) then s.jump (s.curSlot.pc + simm 16 o * 4) 0 else s.retire)

def execBeq (a b : Fin 32) (o : Fin 65536) (s : State) : Out := s.branch a b o (fun x y => x == y)
def execBne (a b : Fin 32) (o : Fin 65536) (s : State) : Out := s.branch a b o (fun x y => x != y)
def execBlt (a b : Fin 32) (o : Fin 65536) (s : State) : Out := s.branch a b o (fun x y => x.slt y)
def execBge (a b : Fin 32) (o : Fin 65536) (s : State) : Out := s.branch a b o (fun x y => !x.slt y)
def execBltu (a b : Fin 32) (o : Fin 65536) (s : State) : Out := s.branch a b o (fun x y => x.ult y)
def execBgeu (a b : Fin 32) (o : Fin 65536) (s : State) : Out := s.branch a b o (fun x y => !x.ult y)

def execJal (d : Fin 32) (o : Fin 2097152) (s : State) : Out :=
  s.gated [] d false (fun s => s.jump (s.curSlot.pc + simm 21 o * 4) d)
def execJalr (d a : Fin 32) (t : Bool) (i : Fin 2048) (s : State) : Out :=
  s.gated [(a, t)] d false (fun s => s.jump (s.reg a + simm 11 i) d)

/-- tval of an illegal-instruction trap: the word at pc. `ERET` outside a handler is one (R153). -/
def eretWord : Word := 0xC0002000

/-- `ERET`: the target is checked with INTRAP still set; then INTRAP is cleared (R153). -/
def execEret (s : State) : Out :=
  if !s.curSlot.intrap then .next (s.trap 0x01 eretWord)
  else .next (match s.checkTarget s.cur s.curSlot.csr.tpc with
    | some f => s.trapOf f
    | none => (s.goTo s.curSlot.csr.tpc).modCur (fun x => x.setIntrap false))

end Machine
end Sys2Proof
end

