-- ==== Sys2Proof/Machine/Block.lean ====
section
/-!
DEFINITION. Accesses that one instruction makes to many addresses (08_memory_ops R187, R189, R193, R205): bytes read
and written by the routes of plain loads and stores, with lines filled on the way.
-/
namespace Sys2Proof
namespace Machine

/-- What an access within an instruction gives: a trap, an uncorrectable word (with its trap, if it is answered by
one), a wait that loses the turn, no room in the speculative structures, a wait for a line of a core in whose set every way
has been refused, or a result. -/
inductive Got (α : Type) where
  | trap (t : TrapInfo)
  | bad (t : Option TrapInfo) (h : Home) (spa group : Nat)
  | wait
  | block
  | full (core line : Nat)
  | ok (s : State) (v : α)

def Got.bind {α β : Type} (g : Got α) (f : State → α → Got β) : Got β :=
  match g with
  | .trap t => .trap t
  | .bad t h a e => .bad t h a e
  | .wait => .wait
  | .block => .block
  | .full c l => .full c l
  | .ok s v => f s v

/-- Ends an instruction of the current slot with what its accesses gave; the state before them stands when it traps or
waits. -/
def State.withGot {α : Type} (s : State) (g : Got α) (act : State → α → State) : State :=
  match g with
  | .trap t => s.trapOf t
  | .bad (some t) h a e => (s.trapOf t).eccFound (s.slotTask s.cur).id h a e
  | .bad none h a e => s.bubble.eccFound (s.slotTask s.cur).id h a e
  | .wait => s.bubble
  | .block => s.block
  | .full c l => (s.tryWays c l).bubble
  | .ok s' v => act s' v

/-- The erasure-coding group of the range that holds an address of slot `k`. -/
def State.groupOf (s : State) (k : Nat) (va : Word) : Nat :=
  ((s.translate (dieOfSlot k) (s.asidOf k) va.toNat 1).map (fun e => e.1.ecg)).getD 0

/-- Bytes that an engine, a delivery or a matched instruction writes at a home: on a core that a checked pair holds, the
partner's local memory takes them too (15_interrupts R378). -/
def State.deliverBytes (s : State) (h : Home) (bs : List Byte) : State := (s.under h bs.length).storeBoth h.key bs

/-- The line is present in the slot's L1, filled now if it was absent. -/
def State.ensureLine (s : State) (k line : Nat) (va : Word) : Got Unit :=
  let c := coreOfSlot k
  if ((s.coreAt c).findL line).isSome then .ok (s.modCore c (fun c => c.touchL line)) ()
  else if (s.lostChunk (line * 32)).isSome || s.heldLine line then .wait
  else
    let r := s.readFill line
    if r.1 = 5 ∧ !(s.home (line * 32)).outside then
      .bad (some ⟨0x0E, replyVal 5 va⟩) (s.home (line * 32)) (line * 32) (s.groupOf k va)
    else if r.1 ≠ 0 then .trap ⟨0x0E, replyVal r.1 va⟩
    else match s.makeRoom c line with
      | none => .full c line
      | some s => .ok ((s.modCore c (fun c =>
          { c with l1 := { line := line, bytes := r.2, dirty := List.replicate 32 false } :: c.l1 })).chargeBytes
            (s.slotTask k).id (s.home (line * 32)) 32) ()

/-- The bytes of a present line. -/
def State.lineBytes (s : State) (core spa n : Nat) : List Byte :=
  match (s.coreAt core).findL (spa / 32) with
  | some l => (l.bytes.drop (spa % 32)).take n
  | none => List.replicate n 0

/-- `n` bytes within one 32-byte line at an SPA, read as a plain load of slot `k` reads them. -/
def State.readSpa (s : State) (k : Nat) (va : Word) (spa n : Nat) : Got (List Byte) :=
  let h := s.homeFor k spa
  let task := (s.slotTask k).id
  if s.journalBlocks k va.toNat n then .wait
  else if h.own k .lm || h.own k .tbl then
    if h.win = .lm ∧ s.isBad h.key n then .bad none h spa 0
    else .ok (s.chargeBytes task h n) (s.readBytes h n)
  else if !s.tagRoom k spa then .block
  else if h.win = .dram then
    (s.ensureLine k (spa / 32) va).bind (fun s _ =>
      .ok (s.tagRead k spa) (s.overlay k spa (s.lineBytes (coreOfSlot k) spa n)))
  else if h.outside then
    let code := s.outsideCode spa spa
    if code ≠ 0 then .trap ⟨0x0E, replyVal code va⟩
    else .ok (s.tagRead k spa) (s.overlay k spa ((List.range n).map (fun i => s.freeByte (spa + i))))
  else if s.dieCode h.die ≠ 0 then .trap ⟨0x0E, replyVal (s.dieCode h.die) va⟩
  else if s.lostHome h then .wait
  else .ok ((s.tagRead k spa).chargeBytes task h n) (s.overlay k spa (s.readBytes h n))

/-- Bytes within one line written as a plain store of slot `k` to its own LM or to CLASS 00 memory writes them. -/
def State.writeSpa (s : State) (k : Nat) (va : Word) (spa : Nat) (bs : List Byte) : Got Unit :=
  let h := s.homeFor k spa
  if h.own k .lm then .ok ((s.chargeBytes (s.slotTask k).id h bs.length).deliverBytes h bs) ()
  else if s.buffers k spa then
    if s.bufferRoom k spa then .ok (s.bufferStore k va.toNat spa bs) () else .block
  else
    (s.ensureLine k (spa / 32) va).bind (fun s _ =>
      .ok (((s.tagWrite k spa).modCore (coreOfSlot k) (fun c =>
        c.modL (spa / 32) (fun l => l.merge (spa % 32) bs))).through k spa bs) ())

/-- `count` words of 8 bytes from a virtual address, each read as `LD` reads it (R189). -/
def State.readWords (s : State) (k : Nat) (va : Word) : Nat → Got (List Nat)
  | 0 => .ok s []
  | n + 1 =>
    match s.checkAccess k va 8 .read with
    | .error t => .trap t
    | .ok (_, spa) =>
      if !(s.home spa).plainOk false 8 then .trap ⟨0x0C, va⟩
      else (s.readSpa k va spa 8).bind (fun s bs =>
        (s.readWords k (va + 8) n).bind (fun s ws => .ok s (leNat bs :: ws)))

/-- The number that 64-bit words stand for, the first the least significant. -/
def wordsNat : List Nat → Nat
  | [] => 0
  | w :: ws => w + 2 ^ 64 * wordsNat ws

/-- A block of `count` words as one number. -/
def State.readBlock (s : State) (k : Nat) (va : Word) (count : Nat) : Got Nat :=
  (s.readWords k va count).bind (fun s ws => .ok s (wordsNat ws))

end Machine
end Sys2Proof
end

