-- ==== Sys2Proof/Machine/Reply.lean ====
section
/-!
DEFINITION. The arrival of a reply at its slot (08_memory_ops R205, R211; 06_scalar R138, R140, R141): a held
instruction retires or traps, a marking producer's register becomes full or empty. An acquire whose region has not left
the L1 stays held (13_consistency R336).
-/
namespace Sys2Proof
namespace Machine

/-- Changes the slot state of a binding wherever it is: both copies of a checked pair, or the save area
(15_interrupts R369, R378). -/
def State.deliverAll (s : State) (b : Binding) (f : Slot → Slot) : State :=
  match s.copiesOf b with
  | [] => s.deliver b.task b.j b.m false f
  | ks => s.modSlots ks f

/-- The value of a marking producer arrives: register writes that waited for it follow (06_scalar R140). -/
def State.produce (s : State) (b : Binding) (r : Fin 32) (v : Word) : State :=
  let ks := s.copiesOf b
  ks.foldl State.regPass (s.deliverAll b (fun x => x.setReg r v))

/-- A reply or refusal arrives (R205). Of a message whose task has been taken back nothing is left to deliver. -/
def execReplyArrival (msg : Nat) (s : State) : Out :=
  match s.findMsg msg with
  | none => .next s
  | some m =>
    let s := s.dropMsg msg
    let kept : Option Word := match m.st with
      | .replied v _ => if s.acquireLeft m then some v else none
      | _ => none
    match kept with
    | some v => .next (s.holdAcquire m v)
    | none =>
    let held := (s.copiesOf m.who).filter (fun k => (s.slotAt k).hold == some (.msg msg))
    match m.st with
    | .replied v fl =>
      if m.marking then .next (s.produce m.who m.reg v)
      else .next (held.foldl (fun s k => s.endAccess k m v fl true) s)
    | .refused code =>
      if m.marking then
        let s := s.deliverAll m.who (fun x =>
          (if x.pending m.reg then x.setSt m.reg .empty else x).post 0x20 (replyVal code m.va) m.reg.val
            (match m.kind with | .loadFe mode => mode | _ => 0))
        .next ((s.copiesOf m.who).foldl State.regPass s)
      else .next (held.foldl (fun s k => s.trapHeld k 0x0E (replyVal code m.va)) s)
    | _ => .next s

end Machine
end Sys2Proof
end

