-- ==== Sys2Proof/Machine/Tokens.lean ====
section
/-!
DEFINITION. Scoreboard tokens (12_copy R297, R298): counting the commands of a slot, recording outcomes, and the
completion of a command wherever its slot's state is.
-/
namespace Sys2Proof
namespace Machine

/-- The kind of an outcome code (Table 12-2): DEST-GONE, RECIPIENT-FULL, INPUT-CLOSED, INPUT-SIZE and CANCELLED are NEG,
every other code is FAULT. -/
def outKind (code : Nat) : OutKind :=
  if code = 4 ∨ code = 8 ∨ code = 9 ∨ code = 10 ∨ code = 13 then .neg else .fault

/-- An outcome arrives at a token's record: the first is stored, a FAULT replaces a NEG, and MORE tells of others. -/
def Token.record (k : Token) (kind : OutKind) (code box addr : Nat) : Token :=
  if k.kind = .none then { k with code := code, kind := kind, box := box % 4096, addr := addr % 2 ^ 48 }
  else if k.kind = .neg ∧ kind = .fault then
    { k with code := code, kind := .fault, more := true, box := box % 4096, addr := addr % 2 ^ 48 }
  else { k with more := true }

/-- The token of an E-format instruction. -/
def Slot.modToken (x : Slot) (t : Fin 8) (f : Token → Token) : Slot := x.setToken t (f (x.token t))
def tokenFin (t : Nat) : Fin 8 := ⟨t % 8, Nat.mod_lt _ (by decide)⟩

/-- A command of the slot is counted when it is accepted; a token that counts 255 makes the slot lose turns. -/
def Slot.tokenFull (x : Slot) (t : Nat) : Bool := 255 ≤ (x.token (tokenFin t)).count
def Slot.countUp (x : Slot) (t : Nat) : Slot := x.modToken (tokenFin t) (fun k => { k with count := k.count + 1 })

/-- A command completes: its token counts down; a DONE task may now commit. -/
def State.tokenDone (s : State) (b : Binding) (t : Nat) : State :=
  s.deliverAll b (fun x => x.modToken (tokenFin t) (fun k => { k with count := k.count - 1 }))

/-- An outcome of a command: into the record, or, with NEGTRAP and of kind NEG, a pending copy-refusal trap while fewer
than 8 are pending (15_interrupts R366); after the task's last TDONE an outcome goes into its retirement record (12_copy
R330). -/
def State.recordAs (s : State) (b : Binding) (t : Nat) (negtrap : Bool) (kind : OutKind) (code box addr : Nat) : State :=
  match s.findTask b.task with
  | none => s
  | some task =>
    if task.st == .done then s.noteOutcome task (addr % 2 ^ 48) (t % 8) code
    else if negtrap && kind == .neg then
      s.deliverAll b (fun x =>
        if 8 ≤ x.pend.countP (fun p => p.cause == 0x22) then x.modToken (tokenFin t) (fun k => k.record kind code box addr)
        else x.post 0x22 (BitVec.ofNat 64 (code * 2 ^ 56 + t % 8 * 2 ^ 48 + addr % 2 ^ 48)))
    else s.deliverAll b (fun x => x.modToken (tokenFin t) (fun k => k.record kind code box addr))

def State.recordOutcome (s : State) (b : Binding) (t : Nat) (negtrap : Bool) (code box addr : Nat) : State :=
  s.recordAs b t negtrap (outKind code) code box addr

end Machine
end Sys2Proof
end

