-- ==== Sys2Proof/Machine/Stage.lean ====
section
/-!
DEFINITION. Inputs of tasks (02_launch R42, R46, R47, R439): staging, and items addressed by task id.
-/
namespace Sys2Proof
namespace Machine

def Task.staged (t : Task) (i : Nat) : Staged := FMap.get {} t.staging i
def State.modStaged (s : State) (id i : Nat) (f : Staged → Staged) : State :=
  s.modTask id (fun t => { t with staging := FMap.set i (f (t.staged i)) t.staging })

/-! ## The staging region of a partition (R42, 15_interrupts R373) -/

/-- One save area with its vector extension (15_interrupts R372). -/
def saveBytes (lanes : Nat) : Nat := 4096 + 64 * lanes

def Task.tileLen (t : Task) (i : Nat) : Nat := ((t.tilesIn[i]?).map (·.length)).getD 0

/-- Stretches of a partition's staging region in use: tiles that have their place, and swapped save areas. -/
def State.stagingTaken (s : State) (part : Nat) : List (Nat × Nat) :=
  (s.tasks.filter (fun t => t.part == part)).flatMap (fun t =>
    t.staging.filterMap (fun e => e.2.spa.map (fun a => (a, t.tileLen e.1))) ++
    t.saves.filterMap (fun a => a.spa.map (fun x => (x, saveBytes a.lanes))))

def smallest : List Nat → Option Nat
  | [] => none
  | a :: l => some (l.foldl min a)

/-- The lowest aligned place of `n` bytes in a region that overlaps nothing taken: where in the region the scheduler puts
what it stages the rules leave open (log entry 120). -/
def fitAt (base size align n : Nat) (taken : List (Nat × Nat)) : Option Nat :=
  let up := fun a => (a + align - 1) / align * align
  smallest ((up base :: taken.map (fun t => up (t.1 + t.2))).filter (fun a =>
    base ≤ a && a + n ≤ base + size && taken.all (fun t => a + n ≤ t.1 || t.1 + t.2 ≤ a)))

/-- The staging region in force for a partition (R34): base and bytes. -/
def State.stagingPlace (s : State) (part align n : Nat) : Option Nat :=
  let u := (s.partAt part).cfg.used
  fitAt u.stagebase (u.stagesize * 65536) align n (s.stagingTaken part)

/-- The memory that holds a place of the staging region, where it can be reached. -/
def State.stagingKey (s : State) (a : Nat) : Option Nat :=
  let h := s.home a
  if !h.outside && h.win == .dram && s.dieCode h.die == 0 && !(s.dieAt h.die).lost then some h.key else none

/-- Bytes written into an input's staging from offset `off` on, in the region's memory too. -/
def State.stageBytes (s : State) (id i off : Nat) (bs : List Byte) : State :=
  let g := (s.taskAt id).staged i
  let pad := g.bytes ++ List.replicate (off + bs.length - g.bytes.length) 0
  let s := s.modStaged id i (fun g => { g with bytes := pad.take off ++ bs ++ pad.drop (off + bs.length) })
  match g.spa.bind s.stagingKey with
  | some key => (s.underKey 0 (key + off) bs.length).store (key + off) bs
  | none => s

/-- The bytes of a staged input, as the region holds them; a region that cannot be reached gives them as they were staged
(log entry 120). -/
def State.stagedNow (s : State) (t : Task) (i : Nat) : List Byte :=
  let g := t.staged i
  match g.spa.bind s.stagingKey with
  | some key => s.readUnder 0 key g.bytes.length
  | none => g.bytes

/-- An input takes its place in the region, with what has been staged of it. None: it does not fit. -/
def State.placeInput (s : State) (id i : Nat) : Option State :=
  let t := s.taskAt id
  if (t.staged i).spa.isSome then some s
  else (s.stagingPlace t.part 8 (t.tileLen i)).map (fun a =>
    (s.modStaged id i (fun g => { g with spa := some a })).stageBytes id i 0 (t.staged i).bytes)

/-- Every declared input is resident in staging. -/
def Task.inputsReady (t : Task) : Bool := (List.range t.decl.nin).all (fun i => (t.staged i).resident)

/-- A QUEUED task whose inputs are all in staging goes to READY (R42). -/
def State.tryReady (s : State) (id : Nat) : State :=
  let t := s.taskAt id
  if t.st = .queued ∧ t.inputsReady ∧ !t.parked then
    (s.modTask id (fun t => { t with st := .ready, readyAt := s.now, readyCycle := s.cycle })).unquietPart t.part
  else s

/-- What becomes of an item addressed by task id (Table 2-4): refused with a code, dropped as a duplicate, written. -/
inductive Fate where
  | refused (code : Nat) | duplicate | staged | image | window | saved
deriving DecidableEq, Repr

/-- Where the target is in an item's way (R46, R47): `kind` 1 an input with index `x`, 2 the register window of slot
`x` from register `r` on; `n` the item's bytes. R46 speaks only of inputs whose FETCH is 0; the model takes an item for one
whose FETCH is 1 in the same way (log entry 105). A PREEMPTED task that has not begun holds such words in its start image. -/
def State.itemFate (s : State) (id kind x r n : Nat) : Fate :=
  match s.findTask id with
  | none => .refused 4
  | some t =>
    if t.st == .done || t.st == .committed || t.st == .retired || t.discarded || t.endCode != 0 then .refused 4
    else
      let early := t.st == .declared || t.st == .queued || t.st == .ready || t.st == .rolledBack
      if kind = 1 then
        if t.decl.nin ≤ x || ((t.tilesIn[x]?).map (·.length)).getD 0 < n then .refused 10
        else if !early || (t.staged x).resident || (t.staged x).item.isSome then .duplicate
        else .staged
      else if t.decl.slots ≤ x || 32 < r + n / 8 then .refused 10
      else if early then .refused 9
      else if t.st == .placed || (t.st == .preempted && t.saves.isEmpty) then .image
      else if t.st == .preempted || t.st == .swapped then .saved
      else .window

/-- A box of an accepted item is written into staging at its offset; `total` boxes make the item whole (R439). -/
def State.stageBox (s : State) (id i cmd num total off : Nat) (bs : List Byte) : State :=
  let g := (s.taskAt id).staged i
  match g.item with
  | some (c, nums) =>
    if c ≠ cmd || nums.contains num then s
    else
      let whole := nums.length + 1 = total
      let s := (s.stageBytes id i off bs).modStaged id i (fun g =>
        { g with resident := whole, item := if whole then none else some (cmd, nums ++ [num]) })
      if whole then s.tryReady id else s
  | none => s

/-- The words of an item for a register window, with their registers. -/
def itemWords (r : Nat) (bs : List Byte) : List (Nat × Word) :=
  (List.range (bs.length / 8)).map (fun i => (r + i, BitVec.ofNat 64 (leNat ((bs.drop (8 * i)).take 8))))

/-- Slot index `x` of the task's members, where they are bound. -/
def State.slotsNamed (s : State) (id x : Nat) : List Nat :=
  (s.slots.filter (fun e => e.2.bind.any (fun b => b.task == id && b.j == x))).map (·.1)

end Machine
end Sys2Proof
end

