-- ==== Sys2Proof/Machine/Parity.lean ====
section
/-!
DEFINITION. Erasure coding (12_copy R322 to R324): the group table, arithmetic of GF(2^8), and the parity updates of a
write.
-/
namespace Sys2Proof
namespace Machine

/-- Twice a byte modulo x^8 + x^4 + x^3 + x^2 + 1. -/
def gfDouble (x : Nat) : Nat := if x < 128 then 2 * x else (2 * x) ^^^ 0x11D

/-- The product of two bytes, from the top bit of `a` down. -/
def gfMulBits (a b : Nat) : Nat → Nat
  | 0 => 0
  | i + 1 => (if bitAt a (7 - i) then b else 0) ^^^ gfDouble (gfMulBits a b i)

def gfMul (a b : Nat) : Nat := gfMulBits a b 8

/-- Coefficients of the parity members (Table 12-19). -/
def gfCoef (p m : Nat) : Nat := if p = 0 then 1 else 2 ^ (m % 8)

/-- The data member in whose region `n` bytes at an SPA lie. -/
def State.dataMember (s : State) (die group spa n : Nat) : Option Nat :=
  match s.ecgPlace die group spa, s.ecgPlace die group (spa + n - 1) with
  | some (m, _), some (m', _) => if m = m' ∧ m < (FMap.get {} (s.dieAt die).ecg group).k then some m else none
  | _, _ => none

/-- The SPA of a byte of a chunk of a member. -/
def State.chunkSpa (s : State) (die group member chunk : Nat) : Nat :=
  ((FMap.get {} (s.dieAt die).ecg group).mbase.getD member 0) * 256 + 256 * chunk

/-- Applies deltas to a chunk of parity member K + p. A holder that is fenced drops the update, and the group is
reported degraded (R323), as is one whose package cannot be reached (14_fabric R349). -/
def State.applyParity (s : State) (die group p m chunk : Nat) (deltas : List (Nat × Byte)) : State :=
  let holder := (FMap.get {} (s.dieAt die).ecg group).k + p
  let h := s.home (s.chunkSpa die group holder chunk)
  if h.outside then (if s.noPath (s.chunkSpa die group holder chunk) then s.note (.degraded group) else s)
  else if s.dieCode h.die ≠ 0 then s.note (.degraded group)
  else deltas.foldl (fun s d =>
    let a := h.key + d.1
    s.store a [Memory.read s.mem a ^^^ BitVec.ofNat 8 (gfMul (gfCoef p m) d.2.toNat)]) s

/-- The deltas of a write of bytes at an SPA, chunk by chunk: chunk number and (offset, delta) (R323). -/
def State.chunkDeltas (s : State) (die group spa : Nat) (bs : List Byte) : List (Nat × List (Nat × Byte)) :=
  let h := s.home spa
  match s.ecgByte die group spa with
  | none => []
  | some (_, c0, i) =>
    let o := 256 * c0 + i
    let all := bs.zipIdx.map (fun b => (o + b.2, Memory.read (s.under h bs.length).mem (h.key + b.2) ^^^ b.1))
    (List.range ((o + bs.length - 1) / 256 - c0 + 1)).map (fun i =>
      (c0 + i, (all.filter (fun d => d.1 / 256 == c0 + i && d.2 != 0)).map (fun d => (d.1 % 256, d.2))))

/-- A write into a protected range with its parity updates done at once. -/
def State.storeProtected (s : State) (die group m spa : Nat) (bs : List Byte) : State :=
  let ds := s.chunkDeltas die group spa bs
  let s := (s.under (s.home spa) bs.length).store (s.home spa).key bs
  ds.foldl (fun s d =>
    (List.range (FMap.get {} (s.dieAt die).ecg group).p).foldl (fun s p => s.applyParity die group p m d.1 d.2) s) s

end Machine
end Sys2Proof
end

