-- ==== Sys2Proof/Machine/Transform.lean ====
section
/-!
DEFINITION. The transform coprocessor (09_vector R236 to R245): the request port and its tickets, checksums, the two
fixed-rate formats and codebook building.
-/
namespace Sys2Proof
namespace Machine

/-! ## Descriptors (R238, Table 9-11); a descriptor is a number of 512 bits -/

def xfFunc (d : Nat) : Nat := fieldAt d 0 4
def xfBlkc (d : Nat) : Nat := fieldAt d 4 4
def xfElem (d : Nat) : Nat := fieldAt d 8 2
def xfCbb (d : Nat) : Nat := fieldAt d 10 2
def xfTfmt (d : Nat) : Bool := bitAt d 12
def xfSlot (d : Nat) : Nat := fieldAt d 16 16
def xfSrc (d : Nat) : Nat := fieldAt d 64 48
def xfDst (d : Nat) : Nat := fieldAt d 128 48
def xfAux (d : Nat) : Nat := fieldAt d 192 48
def xfSrcLen (d : Nat) : Nat := fieldAt d 256 32
def xfDstCap (d : Nat) : Nat := fieldAt d 288 32
def xfParam (d : Nat) : Nat := fieldAt d 320 64

/-- Bytes of an element of EBC and EBD. -/
def xfElemBytes (d : Nat) : Nat := if xfElem d = 1 then 8 else 4
/-- Elements of a block of EBC and EBD, and of CTB. -/
def xfElems (d : Nat) : Nat := if xfFunc d = 5 then 64 * 2 ^ xfBlkc d else 64 * 4 ^ xfBlkc d
/-- Bytes of a raw block. -/
def xfBlock (d : Nat) : Nat :=
  if xfFunc d ≤ 2 then 256 * 4 ^ xfBlkc d else if xfFunc d = 5 then 4 * xfElems d else xfElems d * xfElemBytes d
/-- Bytes of SRC that one block takes. -/
def xfUnit (d : Nat) : Nat := if xfFunc d = 0 then 1 else if xfFunc d = 2 ∨ xfFunc d = 4 then xfSlot d else xfBlock d

def xfReserved (d : Nat) : Bool :=
  fieldAt d 384 128 != 0 || fieldAt d 240 16 != 0 || fieldAt d 176 16 != 0 || fieldAt d 112 16 != 0 ||
    fieldAt d 32 32 != 0 || fieldAt d 13 3 != 0

/-- The number of the first failing check of R238 among 1 to 5, or 0. ELEM, BLKC and CBB are looked at for the functions
that use them. -/
def xfCheck (d : Nat) : Nat :=
  let f := xfFunc d
  let slotted := 1 ≤ f && f ≤ 4
  if 6 ≤ f then 1
  else if xfReserved d || ((f == 3 || f == 4) && 2 ≤ xfElem d) || (f == 5 && xfElem d != 0) || (f != 0 && 3 ≤ xfBlkc d) ||
      (f == 5 && xfCbb d == 3) then 2
  else if slotted && (xfSlot d % 8 != 0 || xfSlot d < 16 || xfBlock d ≤ xfSlot d) then 3
  else if xfSrcLen d % xfUnit d != 0 then 4
  else
    let e := xfParam d
    let normal := !fp64.sign e && !fp64.isInf e && !fp64.isNan e && 2 ^ 52 ≤ fp64.mag e
    if (f == 0 && e / 2 ^ 32 != 0) || ((f == 3 || f == 4) && !normal) || (f == 5 && e != 0) then 5 else 0

/-! ## Reaching memory (R239) -/

/-- A stretch cut at multiples of 32: start and length. -/
def pieces32 (v n : Nat) : List (Nat × Nat) :=
  if n = 0 then []
  else (List.range ((v + n - 1) / 32 - v / 32 + 1)).map (fun i =>
    let a := max v (32 * (v / 32 + i))
    (a, min (v + n) (32 * (v / 32 + i + 1)) - a))

/-- The coprocessor of cluster `q` reaches local memories of its cluster and CLASS 00 memory. -/
def Home.inPort (h : Home) (q : Nat) : Bool := h.win == .dram || (h.win == .lm && !h.outside && h.clusterNum == q)

def State.portSpa (s : State) (q asid v n : Nat) (need : Need) : Option (Range × Nat) :=
  match s.translate (q / 64) asid v n with
  | some (e, a) =>
    let h := s.home a
    if need.met e && h.inPort q && (h.outside || s.dieCode h.die == 0) then some (e, a) else none
  | none => none

/-- A stretch that translates with the right lies in a chunk that is still to be rebuilt, of which it asks the rebuild
(16_recovery R399). -/
def State.portChunk (s : State) (q asid v n : Nat) (need : Need) : Option (Nat × Nat) :=
  (pieces32 v n).findSome? (fun p => (s.portSpa q asid p.1 p.2 need).bind (fun e => s.lostChunk e.2))

/-- A word under a stretch that is read cannot be corrected, or its chunk is lost for good (16_recovery R394, R401). -/
def State.portBad (s : State) (q asid v n : Nat) : Option (Range × Nat) :=
  (pieces32 v n).findSome? (fun p =>
    match s.portSpa q asid p.1 p.2 .read with
    | some (e, a) =>
      if !(s.home a).outside && (s.isBad (s.home a).key p.2 || s.unrecoverable a) then some (e, a) else none
    | none => none)

/-- Bytes read at their homes; another package's bytes are free values. -/
def State.homeBytes (s : State) (spa n : Nat) : List Byte :=
  let h := s.home spa
  if h.outside then (List.range n).map (fun i =>
    BitVec.ofNat 8 ((Config.freeWord s.freeCtr ((spa + i) / 8)).toNat / 256 ^ ((spa + i) % 8)))
  else Memory.readList (s.under h n).mem h.key n

def State.portRead (s : State) (q asid v n : Nat) : Option (List Byte) :=
  if (s.portChunk q asid v n .read).isSome || (s.portBad q asid v n).isSome then none
  else (pieces32 v n).foldr (fun p acc =>
    match s.portSpa q asid p.1 p.2 .read, acc with
    | some (_, a), some l => some (s.homeBytes a p.2 ++ l)
    | _, _ => none) (some [])

/-- Not a fault kind: the access waits for the rebuild of a chunk. -/
def xfWaits : Nat := 255

/-- Why a stretch cannot be read: it waits for a chunk, or kind 6, which stands here for every refusal (log entry 114). -/
def State.portWhy (s : State) (q asid v n : Nat) : Nat := if (s.portChunk q asid v n .read).isSome then xfWaits else 6

/-- The fault kind that a write of `n` bytes meets before it is made: 6, 8 or 0. -/
def State.portFault (s : State) (q asid v n : Nat) : Nat :=
  if (s.portChunk q asid v n .write).isSome then xfWaits
  else (pieces32 v n).foldl (fun k p =>
    if k ≠ 0 then k
    else match s.portSpa q asid p.1 p.2 .write with
      | none => 6
      | some (e, a) => if s.locked a p.2 || s.unrecoverable a then 6 else if e.ecg ≠ 0 ∧ (s.dataMember (q / 64) e.ecg a p.2).isNone then 8 else 0) 0

/-- The task of the request that a port runs. -/
def State.portTask (s : State) (q : Nat) : Nat :=
  ((s.clusterAt q).xfm.head?.bind (fun r => (FMap.find (s.clusterAt q).tickets r.entry).map (fun t => t.who.task))).getD noTaskId

/-- A checked write, charged to the task of the request (17_retire R408), with parity updates in protected ranges. -/
def State.portWrite (s : State) (q asid v : Nat) (bs : List Byte) : State :=
  (pieces32 v bs.length).foldl (fun s p =>
    let part := (bs.drop (p.1 - v)).take p.2
    match s.portSpa q asid p.1 p.2 .write with
    | none => s
    | some (e, a) =>
      let s := s.chargeBytes (s.portTask q) (s.home a) p.2
      if (s.home a).outside then s
      else match if e.ecg = 0 then none else s.dataMember (q / 64) e.ecg a p.2 with
        | some m => s.storeProtected (q / 64) e.ecg m a part
        | none => s.deliverBytes (s.home a) part) s

/-! ## The port (R236, R237) -/

/-- The event that runs a request of a function. -/
def xfEvent (f q : Nat) : Event :=
  match f with
  | 0 => .xfmCrc q | 1 => .xfmFrc q | 2 => .xfmFrd q | 3 => .xfmEbc q | 4 => .xfmEbd q | _ => .xfmCtb q

/-- The first request of the port begins. -/
def State.startPort (s : State) (q : Nat) : State :=
  match (s.clusterAt q).xfm with
  | [] => s
  | r :: _ => s.push (xfEvent (xfFunc r.desc) q)

/-- Reads and judges the descriptor at an address: the number of the failing check, or 0, and the descriptor. It is read at
its home, past the L1 of the issuing core, and only where the port reaches: R236 names no route for it (log entry 121). -/
def State.xfDescriptor (s : State) (k v : Nat) : Nat × Nat :=
  match s.portSpa (clusterOfSlot k) (s.asidOf k) v 64 .read with
  | none => (6, 0)
  | some (_, a) =>
    let d := leNat (s.homeBytes a 64)
    let n := xfCheck d
    (if n ≠ 0 then n else if v % 64 ≠ 0 then 6 else 0, d)

/-- A marking producer whose value comes later: g[b] is pending from issue and the slot runs on (06_scalar R141). -/
def State.produceLater (s : State) (b : Fin 32) (v : Word) (delay : Nat) : State :=
  if b = 0 then s.modCur Slot.retire
  else
    let id := s.fresh
    let m : Msg :=
      { id := id, slot := s.cur, core := coreOfSlot s.cur, asid := s.asidOf s.cur, kind := .read, va := 0, spa := 0, width := 8,
        reg := b, marking := true, who := s.curSlot.who, st := .replied v 0 }
    let s := { s.bumpId with msgs := s.msgs ++ [m] }.modCur (fun x => (x.setSt b .pending).retire)
    if delay = 0 then s.push (.replyArrival id) else s.after delay (.replyArrival id)

/-- When the port answers a request is open. -/
def State.portDelay (s : State) : Nat := Config.freeCode s.freeCtr s.nextId

/-- `XREQ` (R236): the descriptor is judged and the request accepted at issue, and the answer comes later. -/
def execXreq (k : Fin 8) (w : Fin 256) (a b : Fin 32) (s : State) : Out :=
  s.gatedE [a] b w.val false (fun s =>
    let q := clusterOfSlot s.cur
    let c := s.clusterAt q
    let r := s.xfDescriptor s.cur (s.regNat a)
    let s := match s.portSpa q (s.asidOf s.cur) (s.regNat a) 64 .read with
      | some (_, h) => s.chargeBytes s.curSlot.who.task (s.home h) 64
      | none => s
    let free := (List.range 16).filter (fun e => (FMap.find c.tickets e).isNone)
    if r.1 ≠ 0 then s.produceLater b (BitVec.ofNat 64 (2 ^ 62 + r.1)) s.portDelay
    else if 8 ≤ c.xfm.length || free.isEmpty then s.produceLater b (BitVec.ofNat 64 (2 ^ 63)) s.portDelay
    else if s.curSlot.tokenFull k.val then s.bubble
    else
      let e := free.getD (Config.freeCode s.freeCtr 0 % free.length) 0
      let gen := (FMap.get 0 c.gens e + 1) % 4096
      let core := coreOfSlot s.cur
      let req : XfmReq :=
        { entry := e, desc := r.2, asid := s.asidOf s.cur, core := core, id := s.fresh,
          after := (s.joins.filter (fun j => j.core == core && j.port && s.joinOpen j.id)).map (·.id) }
      let t : Ticket := { gen := gen, who := s.curSlot.who, token := k.val }
      let s := s.bumpId.modCluster q (fun c =>
        { c with xfm := c.xfm ++ [req], tickets := FMap.set e t c.tickets, gens := FMap.set e gen c.gens })
      let s := if c.xfm.isEmpty then s.startPort q else s
      (s.modCur (fun x => x.countUp k.val)).produceLater b (BitVec.ofNat 64 (e + gen * 16)) s.portDelay)

/-- The ticket that a register names for the current slot and token. -/
def State.ticketOf (s : State) (k : Nat) (v : Nat) : Option (Nat × Ticket) :=
  match FMap.find (s.clusterAt (clusterOfSlot s.cur)).tickets (v % 16) with
  | some t =>
    if v < 65536 && t.gen == v / 16 && t.who.task == s.curSlot.who.task && t.token == k then some (v % 16, t) else none
  | none => none

def TicketState.num (t : TicketState) : Nat :=
  match t with | .queued => 0 | .running => 1 | .done _ => 2 | .faulted _ => 3

/-- `XPOLL` (R237): the state as it is at issue. -/
def execXpoll (k : Fin 8) (w : Fin 256) (a b : Fin 32) (s : State) : Out :=
  s.gatedE [a] b w.val false (fun s =>
    let v := match s.ticketOf k.val (s.regNat a) with
      | some t => t.2.st.num
      | none => 2 ^ 63
    s.produceLater b (BitVec.ofNat 64 v) 0)

def State.dropTicket (s : State) (q e : Nat) : State :=
  s.modCluster q (fun c => { c with tickets := FMap.drop e c.tickets })

/-- `XRES` (R237): g[rb] is pending until the request has ended, and the ticket is freed then. -/
def execXres (k : Fin 8) (w : Fin 256) (a b : Fin 32) (s : State) : Out :=
  s.gatedE [a] b w.val false (fun s =>
    let q := clusterOfSlot s.cur
    match s.ticketOf k.val (s.regNat a) with
    | none => s.produceLater b (BitVec.ofNat 64 (2 ^ 63)) 0
    | some (e, t) =>
      match t.st with
      | .done v => (s.dropTicket q e).produceLater b v 0
      | .faulted v => (s.dropTicket q e).produceLater b v 0
      | _ =>
        let who := s.curSlot.who
        let t' : Ticket := { t with waiters := t.waiters ++ [(who, b)] }
        (s.modCluster q (fun c => { c with tickets := FMap.set e t' c.tickets })).modCur
            (fun x => (x.setSt b .pending).retire))

/-- How a request ends: its result word, or a fault kind with its block and bit position. -/
inductive XfEnd where
  | done (w : Nat)
  | fault (kind block pos : Nat)
deriving DecidableEq, Repr

/-- The request ends: its ticket's state, its token, what waits for its result, and the next request. The code with
which a fault stands in the token's record is not given by the manual: a free value. -/
def State.endRequest (s : State) (q : Nat) (r : XfmReq) (e : XfEnd) : State :=
  let s := s.modCluster q (fun c => { c with xfm := c.xfm.filter (fun x => x.id != r.id) })
  let s := match FMap.find (s.clusterAt q).tickets r.entry with
    | none => s
    | some t =>
      let word := match e with
        | .done w => BitVec.ofNat 64 w
        | .fault k b p => BitVec.ofNat 64 (2 ^ 63 + k * 2 ^ 56 + b % 2 ^ 24 * 2 ^ 32 + p % 2 ^ 32)
      let s := match e with
        | .done _ => s
        | .fault .. =>
          let f := (Config.freeWord s.freeCtr r.id).toNat
          s.recordAs t.who t.token false .fault (f % 256) (f / 256) (f / 2 ^ 16)
      let s := s.tokenDone t.who t.token
      let st : TicketState := match e with
        | .done _ => .done word
        | .fault .. => .faulted word
      let t' : Ticket := { t with st := st }
      let s := if t.waiters.isEmpty then s.modCluster q (fun c => { c with tickets := FMap.set r.entry t' c.tickets })
        else t.waiters.foldl (fun s (w : Binding × Fin 32) => s.produce w.1 w.2 word) (s.dropTicket q r.entry)
      s.tryCommit t.who.task
  s.startPort q

/-- The request begins: its ticket is running. -/
def State.portBegin (s : State) (q : Nat) (r : XfmReq) : State :=
  s.modCluster q (fun c => { c with
    tickets := c.tickets.map (fun e => if e.1 = r.entry then (e.1, { e.2 with st := .running }) else e) })

/-- What a block of a request reads: its source, and the raw bytes of an escaped slot (R241). -/
def State.portReads (s : State) (q : Nat) (r : XfmReq) (len : Nat) : List (Nat × Nat) :=
  let d := r.desc
  let v := xfSrc d + r.next * len
  let raw := match if xfFunc d = 2 ∨ xfFunc d = 4 then s.portRead q r.asid v len else none with
    | some bs => if bitAt (leNat bs) 15 then [(xfAux d + fieldAt (leNat bs) 64 64, xfBlock d)] else []
    | none => []
  (v, len) :: raw

/-- A block's source bytes are charged, for the coprocessor and for their reads (17_retire R408). -/
def State.portCharged (s : State) (q : Nat) (r : XfmReq) (len : Nat) : State :=
  (s.portReads q r len).foldl (fun s w => (pieces32 w.1 w.2).foldl (fun s p =>
    match s.portSpa q r.asid p.1 p.2 .read with
    | some (_, a) => s.chargeBytes (s.portTask q) (s.home a) p.2
    | none => s) s) (s.charge (s.portTask q) (200 * len))

/-- The state in which a block of a request runs: with the first one the request has begun. -/
def State.portAt (s : State) (q : Nat) (r : XfmReq) (len : Nat) : State :=
  (if r.next = 0 then s.portBegin q r else s).portCharged q r len

/-- What a block of a request does, from its number and the escape bytes used so far: the state and the escape bytes then,
or a fault kind and its position. -/
abbrev XfBlock := XfmReq → State → Nat → Nat → Except (Nat × Nat) (State × Nat)

/-- An uncorrectable word that a faulted block was to read is reported to the service processors (16_recovery Table 16-8). -/
def State.portReport (s : State) (q : Nat) (r : XfmReq) (v n : Nat) : State :=
  match s.portBad q r.asid v n with
  | some (e, a) => if s.isBad (s.home a).key 32 then s.eccFound noTaskId (s.home a) a e.ecg else s
  | none => s

/-- A block of the first request of a port, if it is of the given function, which has `count` blocks of `len` source bytes:
behind an open join the request waits (13_consistency R339), while new translations are held its next block waits
(04_placement R93), and so it does for a chunk that is being rebuilt. Blocks are processed in increasing index; when the next
one begins is open, and a rollback of the task falls between two blocks (R239). -/
def State.runPort (s : State) (q f : Nat) (count len : Nat → Nat) (one : XfBlock) (fin : Nat → Nat → Nat → Nat) : State :=
  match (s.clusterAt q).xfm with
  | [] => s
  | r :: _ =>
    let d := r.desc
    if xfFunc d ≠ f then s.startPort q
    else if (r.next = 0 ∧ r.after.any s.joinOpen) ∨ s.translationHeld r.asid then s.after (acNs 16) (xfEvent f q)
    else
      let s0 := s
      let s := if count d = 0 then s else s.portAt q r (len d)
      if count d = 0 then s.endRequest q r (.done (fin d 0 0))
      else match one r s r.next r.esc with
        | .error e =>
          if e.1 = xfWaits then
            let s := match s0.portChunk q r.asid (xfSrc d + r.next * len d) (len d) .read with
              | some c => s0.awaitChunk c
              | none => s0
            s.after (acNs 4096) (xfEvent f q)
          else (s.portReport q r (xfSrc d + r.next * len d) (len d)).endRequest q r (.fault e.1 r.next e.2)
        | .ok z =>
          if count d ≤ r.next + 1 then z.1.endRequest q r (.done (fin d (r.next + 1) z.2))
          else
            let s := z.1.modCluster q (fun c => { c with xfm := c.xfm.map (fun (x : XfmReq) =>
              if x.id = r.id then { x with next := r.next + 1, esc := z.2 } else x) })
            s.after (Config.freeCode s.freeCtr r.id) (xfEvent f q)

def xfCount (d : Nat) : Nat := xfSrcLen d / xfUnit d

/-! ## CRC (R240) -/

def crcBits : Nat → Nat → Nat
  | 0, c => c
  | n + 1, c => crcBits n (if c % 2 = 1 then (c / 2) ^^^ 0x82F63B78 else c / 2)

def crcByte (c : Nat) (b : Byte) : Nat := crcBits 8 (c ^^^ b.toNat)

def crc32c (seed : Nat) (bs : List Byte) : Nat := bs.foldl crcByte (seed ^^^ 0xFFFFFFFF) ^^^ 0xFFFFFFFF

def execXfmCrc (cluster : Nat) (s : State) : Out :=
  .next (s.runPort cluster 0 (fun _ => 1) xfSrcLen (fun r s _ _ =>
    match s.portRead cluster r.asid (xfSrc r.desc) (xfSrcLen r.desc) with
    | none => .error (s.portWhy cluster r.asid (xfSrc r.desc) (xfSrcLen r.desc), 0)
    | some bs => .ok (s, crc32c (xfParam r.desc % 2 ^ 32) bs)) (fun _ _ crc => crc))

/-! ## Slots (R241) -/

/-- A slot of an escaped block: ESC and the offset of its raw bytes in the escape region. -/
def escapeSlot (S off : Nat) : List Byte := leBytes S (2 ^ 15 + off * 2 ^ 64)

/-- Writes a block's slot, its raw bytes to the escape region first when it is escaped, or the fault that it meets:
capacities (kind 7), then the addresses (6, 8). `cap` is the escape region's capacity. -/
def State.putSlot (s : State) (q : Nat) (r : XfmReq) (i esc cap : Nat) (raw : List Byte) (coded : Option (List Byte)) :
    Except (Nat × Nat) (State × Nat) :=
  let d := r.desc
  let S := xfSlot d
  let dst := xfDst d + i * S
  if xfDstCap d < (i + 1) * S then .error (7, 0)
  else
    let k := s.portFault q r.asid dst S
    match coded with
    | some bs => if k ≠ 0 then .error (k, 0) else .ok (s.portWrite q r.asid dst bs, esc)
    | none =>
      if cap < esc + raw.length then .error (7, 0)
      else
        let k2 := s.portFault q r.asid (xfAux d + esc) raw.length
        if k ≠ 0 then .error (k, 0) else if k2 ≠ 0 then .error (k2, 0)
        else .ok ((s.portWrite q r.asid (xfAux d + esc) raw).portWrite q r.asid dst (escapeSlot S esc), esc + raw.length)

/-- Writes a decoded block to DST. -/
def State.putBlock (s : State) (q : Nat) (r : XfmReq) (i : Nat) (bs : List Byte) : Except (Nat × Nat) (State × Nat) :=
  let dst := xfDst r.desc + i * bs.length
  let k := s.portFault q r.asid dst bs.length
  if xfDstCap r.desc < (i + 1) * bs.length then .error (7, 0)
  else if k ≠ 0 then .error (k, 0)
  else .ok (s.portWrite q r.asid dst bs, 0)

/-- The raw bytes of an escaped slot (kind 4 for a header bit, kind 5 past the capacity, kind 6). -/
def State.readEscape (s : State) (q : Nat) (r : XfmReq) (cap n : Nat) : Except (Nat × Nat) (List Byte) :=
  let off := fieldAt n 64 64
  if fieldAt n 0 15 ≠ 0 then .error (4, 0)
  else if cap < off + xfBlock r.desc then .error (5, 64)
  else match s.portRead q r.asid (xfAux r.desc + off) (xfBlock r.desc) with
    | none => .error (s.portWhy q r.asid (xfAux r.desc + off) (xfBlock r.desc), 0)
    | some bs => .ok bs

/-! ## FRC blocks (R242, R243) -/

/-- Code lengths of the sixteen classes, and the canonical codes by length then class. -/
def frcLen (n c : Nat) : Nat := fieldAt n (16 + 4 * c) 4
def frcOrder (n : Nat) : List Nat :=
  (List.range 15).flatMap (fun l => (List.range 16).filter (fun c => frcLen n c = l + 1))

/-- Codes of the classes in order: (class, length, code). -/
def frcCodes (n : Nat) : List Nat → Nat → Nat → List (Nat × Nat × Nat)
  | [], _, _ => []
  | c :: cs, prev, len =>
    let l := frcLen n c
    let code := if len = 0 then 0 else (prev + 1) * 2 ^ (l - len)
    (c, l, code) :: frcCodes n cs code l

/-- The lengths over-subscribe the code space. -/
def frcOver (n : Nat) : Bool :=
  32768 < ((List.range 16).map (fun c => if frcLen n c = 0 then 0 else 2 ^ (15 - frcLen n c))).foldl (· + ·) 0

/-- One class code, most significant bit first, from bit `p`: the class and the next position, or a fault kind. -/
def frcClass (codes : List (Nat × Nat × Nat)) (n bits : Nat) : Nat → Nat → Nat → Nat → Except Nat (Nat × Nat)
  | 0, _, _, _ => .error 2
  | fuel + 1, p, len, acc =>
    if bits ≤ p then .error 3
    else
      let acc := 2 * acc + boolNat (bitAt n p)
      match codes.find? (fun e => e.2.1 == len + 1 && e.2.2 == acc) with
      | some e => .ok (e.1, p + 1)
      | none =>
        if codes.any (fun e => len + 1 < e.2.1 && e.2.2 / 2 ^ (e.2.1 - (len + 1)) == acc) then
          frcClass codes n bits fuel (p + 1) (len + 1) acc
        else .error 2

/-- `c` bytes copied one at a time from `d` back; the output stands newest byte first. -/
def frcCopy (d : Nat) : Nat → List Byte → List Byte
  | 0, out => out
  | c + 1, out => frcCopy d c (out.getD (d - 1) 0 :: out)

/-- The tokens of a slot of `bits` bits from position `p`: the block's bytes newest first and the position after the last
token, or a fault kind and position. -/
def frcTokens (codes : List (Nat × Nat × Nat)) (n bits B : Nat) :
    Nat → Nat → List Byte → Except (Nat × Nat) (List Byte × Nat)
  | 0, p, _ => .error (3, p)
  | fuel + 1, p, out =>
    match frcClass codes n bits 15 p 0 0 with
    | .error k => .error (k, p)
    | .ok (c, p') =>
      if c = 15 then if out.length = B then .ok (out, p') else .error (3, p)
      else if c < 8 then
        if bits < p' + 8 * (c + 1) || B < out.length + (c + 1) then .error (3, p)
        else
          let bs := (List.range (c + 1)).map (fun i => BitVec.ofNat 8 (n / 2 ^ (p' + 8 * i)))
          frcTokens codes n bits B fuel (p' + 8 * (c + 1)) (bs.reverse ++ out)
      else
        if bits < p' + 12 then .error (3, p)
        else
          let d := fieldAt n p' 12
          if d = 0 || out.length < d then .error (1, p)
          else if B < out.length + (c - 5) then .error (3, p)
          else frcTokens codes n bits B fuel (p' + 12) (frcCopy d (c - 5) out)

/-- The block that an unescaped slot of `S` bytes decodes to, and the bit after its coded data. -/
def frcRead (S B n : Nat) : Except (Nat × Nat) (List Byte × Nat) :=
  if fieldAt n 0 15 ≠ 0 then .error (4, 0)
  else if frcOver n then .error (4, 16)
  else match frcTokens (frcCodes n (frcOrder n) 0 0) n (8 * S) B (8 * S + 1) 80 [] with
    | .error e => .error e
    | .ok r => .ok (r.1.reverse, r.2)

def frcDecode (S B n : Nat) : Except (Nat × Nat) (List Byte) :=
  match frcRead S B n with
  | .error e => .error e
  | .ok r => .ok r.1

/-- The slot that the compressor forms: any that decodes to the block with every bit after the coded data zero, or none
when its coding does not fit (R241). -/
def frcEncode (S : Nat) (raw : List Byte) : Option (List Byte) :=
  let n := Config.frcCoding S raw.length (leNat raw) % 2 ^ (8 * S)
  if bitAt n 15 then none
  else match frcRead S raw.length n with
    | .ok r => if r.1 = raw ∧ n < 2 ^ r.2 then some (leBytes S n) else none
    | .error _ => none

def execXfmFrc (cluster : Nat) (s : State) : Out :=
  .next (s.runPort cluster 1 xfCount xfBlock (fun r s i esc =>
    let d := r.desc
    match s.portRead cluster r.asid (xfSrc d + i * xfBlock d) (xfBlock d) with
    | none => .error (s.portWhy cluster r.asid (xfSrc d + i * xfBlock d) (xfBlock d), 0)
    | some raw => s.putSlot cluster r i esc (xfParam d) raw (frcEncode (xfSlot d) raw))
    (fun _ n esc => n % 2 ^ 32 + esc % 2 ^ 32 * 2 ^ 32))

def execXfmFrd (cluster : Nat) (s : State) : Out :=
  .next (s.runPort cluster 2 xfCount xfSlot (fun r s i _ =>
    let d := r.desc
    match s.portRead cluster r.asid (xfSrc d + i * xfSlot d) (xfSlot d) with
    | none => .error (s.portWhy cluster r.asid (xfSrc d + i * xfSlot d) (xfSlot d), 0)
    | some bs =>
      let n := leNat bs
      match if bitAt n 15 then s.readEscape cluster r (xfParam d) n else frcDecode (xfSlot d) (xfBlock d) n with
      | .error e => .error e
      | .ok out => s.putBlock cluster r i out)
    (fun d n _ => n * xfBlock d))

/-! ## EBC blocks (R244) -/

/-- The elements of a block of `w` bytes each. -/
def elemsOf (w : Nat) : Nat → List Byte → List Nat
  | 0, _ => []
  | n + 1, bs => leNat (bs.take w) :: elemsOf w n (bs.drop w)

/-- num / den rounded to an integer, to nearest, ties to even. -/
def divRne (num den : Nat) : Nat :=
  let q := num / den
  let r := num % den
  if den < 2 * r || (2 * r == den && q % 2 == 1) then q + 1 else q

/-- x / (2E) rounded to an integer. -/
def ebQuotient (x e : Exact) : Int :=
  let k := x.e - e.e - 1
  let q := if 0 ≤ k then divRne (x.m * 2 ^ k.toNat) e.m else divRne x.m (e.m * 2 ^ (-k).toNat)
  if x.neg then -(q : Int) else q

/-- q · 2E rounded to the element format. -/
def ebValue (f : Fmt) (e : Exact) (q : Int) : Nat :=
  if q = 0 then 0 else (f.round 0 ⟨decide (q < 0), q.natAbs * e.m, e.e + 1, false⟩).1

/-- |x - y| ≤ E for finite values. -/
def withinBound (x y e : Exact) : Bool :=
  let k := min (min x.e y.e) e.e
  (x.over k - y.over k).natAbs ≤ (e.over k).natAbs

def zigzag (d : Nat) : Nat := if d < 2 ^ 63 then 2 * d else 2 * (2 ^ 64 - d) - 1
def unzigzag (z : Nat) : Nat := if z % 2 = 0 then z / 2 else 2 ^ 64 - (z + 1) / 2
/-- A signed number modulo 2^64. -/
def wrap64 (i : Int) : Nat := (i % (2 ^ 64 : Nat)).toNat

/-- Differences of neighbours modulo 2^64. -/
def ebDiffs : List Int → List Nat
  | a :: b :: l => wrap64 (b - a) :: ebDiffs (b :: l)
  | _ => []

/-- The slot of a block, or none when it is escaped. -/
def ebEncode (f : Fmt) (S : Nat) (e : Exact) (xs : List Nat) : Option (List Byte) :=
  if xs.any (fun x => f.isInf x || f.isNan x) then none
  else
    let qs := xs.map (fun x => ebQuotient (f.finite x) e)
    if qs.any (fun q => 2 ^ 62 ≤ q.natAbs) then none
    else
      let zs := (ebDiffs qs).map zigzag
      let k := bitLen (zs.foldl max 0)
      let ok := (xs.zip qs).all (fun p =>
        let y := ebValue f e p.2
        !f.isInf y && withinBound (f.finite p.1) (f.finite y) e)
      if 62 < k || 8 * S < 80 + zs.length * k || !ok then none
      else
        let body := zs.zipIdx.foldl (fun n z => n + z.1 * 2 ^ (80 + k * z.2)) 0
        some (leBytes S (k + wrap64 (qs.headD 0) * 2 ^ 16 + body))

/-- The quantised values of a slot. -/
def ebRead (n k : Nat) : Nat → Nat → Nat → List Nat
  | 0, _, _ => []
  | c + 1, p, q =>
    let q' := (q + unzigzag (fieldAt n p k)) % 2 ^ 64
    q' :: ebRead n k c (p + k) q'

/-- The block that an unescaped slot decodes to. -/
def ebDecode (f : Fmt) (w S count : Nat) (e : Exact) (n : Nat) : Except (Nat × Nat) (List Byte) :=
  let k := fieldAt n 0 6
  if fieldAt n 6 9 ≠ 0 || 62 < k then .error (4, 0)
  else if 8 * S < 80 + (count - 1) * k then .error (3, 80 + (8 * S - 80) / k * k)
  else
    let q0 := fieldAt n 16 64
    let qs := q0 :: ebRead n k (count - 1) 80 q0
    .ok (qs.flatMap (fun q => leBytes w (ebValue f e (signedField q 64))))

def xfFmt (d : Nat) : Fmt := if xfElem d = 1 then fp64 else fp32

/-- EBC: the escape region has no stated capacity, as PARAM holds the bound. -/
def execXfmEbc (cluster : Nat) (s : State) : Out :=
  .next (s.runPort cluster 3 xfCount xfBlock (fun r s i esc =>
    let d := r.desc
    match s.portRead cluster r.asid (xfSrc d + i * xfBlock d) (xfBlock d) with
    | none => .error (s.portWhy cluster r.asid (xfSrc d + i * xfBlock d) (xfBlock d), 0)
    | some raw =>
      s.putSlot cluster r i esc (2 ^ 64) raw
        (ebEncode (xfFmt d) (xfSlot d) (fp64.finite (xfParam d)) (elemsOf (xfElemBytes d) (xfElems d) raw)))
    (fun _ n esc => n % 2 ^ 32 + esc % 2 ^ 32 * 2 ^ 32))

def execXfmEbd (cluster : Nat) (s : State) : Out :=
  .next (s.runPort cluster 4 xfCount xfSlot (fun r s i _ =>
    let d := r.desc
    match s.portRead cluster r.asid (xfSrc d + i * xfSlot d) (xfSlot d) with
    | none => .error (s.portWhy cluster r.asid (xfSrc d + i * xfSlot d) (xfSlot d), 0)
    | some bs =>
      let n := leNat bs
      match if bitAt n 15 then s.readEscape cluster r (2 ^ 65) n
        else ebDecode (xfFmt d) (xfElemBytes d) (xfSlot d) (xfElems d) (fp64.finite (xfParam d)) n with
      | .error e => .error e
      | .ok out => s.putBlock cluster r i out)
    (fun d n _ => n * xfBlock d))

/-! ## CTB (R245) -/

/-- An FP32 value as a whole number of 2^-149, an infinity as a number beyond all others. -/
def ctbKey (x : Nat) : Int :=
  if fp32.isInf x then (if fp32.sign x then -(2 ^ 400 : Int) else (2 ^ 400 : Int)) else (fp32.finite x).over (-149)

/-- Insertion behind the values that are not greater. -/
def ctbInsert (x : Nat) : List Nat → List Nat
  | [] => [x]
  | y :: l => if ctbKey x < ctbKey y then x :: y :: l else y :: ctbInsert x l

/-- The distance of a value to an entry, none when it is infinite. -/
def ctbDistance (f : Fmt) (x e : Nat) : Option Nat :=
  if fp32.isInf x then if f.isInf e && f.sign e == fp32.sign x then some 0 else none
  else if f.isInf e then none
  else some ((fp32.finite x).over (-149) - (f.finite e).over (-149)).natAbs

/-- The index of the nearest entry, the lowest on a tie. -/
def ctbIndex (f : Fmt) (table : List Nat) (x : Nat) : Nat :=
  if fp32.isNan x then 0
  else
    let best := table.zipIdx.foldl (fun (b : Option Nat × Nat) e =>
      match ctbDistance f x e.1, b.1 with
      | some n, none => (some n, e.2)
      | some n, some m => if n < m then (some n, e.2) else b
      | none, _ => b) (none, 0)
    best.2

/-- The table and the packed indices of a block. -/
def ctbBlock (f : Fmt) (b : Nat) (xs : List Nat) : List Nat × Nat :=
  let y := (xs.filter (fun x => !fp32.isNan x)).foldl (fun l x => ctbInsert x l) []
  let m := y.length
  let table := (List.range (2 ^ b)).map (fun j =>
    if m = 0 then 0 else (convertFloat fp32 f 0 (y.getD ((2 * j + 1) * m / 2 ^ (b + 1)) 0)).1)
  (table, xs.zipIdx.foldl (fun n x => n + ctbIndex f table x.1 * 2 ^ (b * x.2)) 0)

def execXfmCtb (cluster : Nat) (s : State) : Out :=
  .next (s.runPort cluster 5 xfCount xfBlock (fun r s i _ =>
    let d := r.desc
    let b := xfCbb d + 2
    let len := xfElems d * b / 8
    match s.portRead cluster r.asid (xfSrc d + i * xfBlock d) (xfBlock d) with
    | none => .error (s.portWhy cluster r.asid (xfSrc d + i * xfBlock d) (xfBlock d), 0)
    | some raw =>
      let z := ctbBlock (if xfTfmt d then fp16 else bf16) b (elemsOf 4 (xfElems d) raw)
      let aux := xfAux d + i * 2 ^ (b + 1)
      let k := s.portFault cluster r.asid (xfDst d + i * len) len
      let k2 := s.portFault cluster r.asid aux (2 ^ (b + 1))
      if xfDstCap d < (i + 1) * len then .error (7, 0)
      else if k ≠ 0 then .error (k, 0) else if k2 ≠ 0 then .error (k2, 0)
      else .ok ((s.portWrite cluster r.asid (xfDst d + i * len) (leBytes len z.2)).portWrite cluster r.asid aux
        (z.1.flatMap (leBytes 2)), 0))
    (fun _ n _ => n))

end Machine
end Sys2Proof
end

