-- ==== Sys2Proof/Machine/Fp.lean ====
section
/-!
DEFINITION. The scalar floating instructions FP, FMA and FCVT (07_numbers R173 to R176).
-/
namespace Sys2Proof
namespace Machine

/-- A two-source function of a format (Table 7-5); FP64 division and square root lose one turn (R173). -/
def State.fp2 (s : State) (d a b : Fin 32) (t u : Bool) (p : Fin 4) (turns : Nat)
    (f : Fmt → Nat → Nat → Nat × Nat) : Out :=
  s.gated [(a, t), (b, u)] d false (fun s =>
    let fm := fmtOf p.val
    s.floatTo d turns (f fm (fm.bits (s.reg a)) (fm.bits (s.reg b))))

def State.fp1 (s : State) (d a : Fin 32) (t : Bool) (p : Fin 4) (turns : Nat) (f : Fmt → Nat → Nat × Nat) : Out :=
  s.gated [(a, t)] d false (fun s =>
    let fm := fmtOf p.val
    s.floatTo d turns (f fm (fm.bits (s.reg a))))

def execFadd (d a b : Fin 32) (t u : Bool) (p : Fin 4) (r : Fin 8) (s : State) : Out :=
  s.fp2 d a b t u p 0 (fun f x y => f.addBits (s.roundMode r.val) x y)
def execFsub (d a b : Fin 32) (t u : Bool) (p : Fin 4) (r : Fin 8) (s : State) : Out :=
  s.fp2 d a b t u p 0 (fun f x y => f.subBits (s.roundMode r.val) x y)
def execFmul (d a b : Fin 32) (t u : Bool) (p : Fin 4) (r : Fin 8) (s : State) : Out :=
  s.fp2 d a b t u p 0 (fun f x y => f.mulBits (s.roundMode r.val) x y)
def execFdiv (d a b : Fin 32) (t u : Bool) (p : Fin 4) (r : Fin 8) (s : State) : Out :=
  s.fp2 d a b t u p (boolNat (p == 0)) (fun f x y => f.divBits (s.roundMode r.val) x y)
def execFsqrt (d a : Fin 32) (t : Bool) (p : Fin 4) (r : Fin 8) (s : State) : Out :=
  s.fp1 d a t p (boolNat (p == 0)) (fun f x => f.sqrtBits (s.roundMode r.val) x)
def execFmin (d a b : Fin 32) (t u : Bool) (p : Fin 4) (s : State) : Out :=
  s.fp2 d a b t u p 0 (fun f x y => f.minMaxNum false x y)
def execFmax (d a b : Fin 32) (t u : Bool) (p : Fin 4) (s : State) : Out :=
  s.fp2 d a b t u p 0 (fun f x y => f.minMaxNum true x y)
def execFminm (d a b : Fin 32) (t u : Bool) (p : Fin 4) (s : State) : Out :=
  s.fp2 d a b t u p 0 (fun f x y => f.minMaxNan false x y)
def execFmaxm (d a b : Fin 32) (t u : Bool) (p : Fin 4) (s : State) : Out :=
  s.fp2 d a b t u p 0 (fun f x y => f.minMaxNan true x y)
def execFeq (d a b : Fin 32) (t u : Bool) (p : Fin 4) (s : State) : Out := s.fp2 d a b t u p 0 Fmt.eqBits
def execFlt (d a b : Fin 32) (t u : Bool) (p : Fin 4) (s : State) : Out := s.fp2 d a b t u p 0 Fmt.ltBits
def execFle (d a b : Fin 32) (t u : Bool) (p : Fin 4) (s : State) : Out := s.fp2 d a b t u p 0 Fmt.leBits
def execFclass (d a : Fin 32) (t : Bool) (p : Fin 4) (s : State) : Out :=
  s.fp1 d a t p 0 (fun f x => (f.classMask x, 0))

/-- Sign injection copies bits, NaNs included (Table 7-5). -/
def execFsgnj (d a b : Fin 32) (t u : Bool) (p : Fin 4) (s : State) : Out :=
  s.fp2 d a b t u p 0 (fun f x y => (f.withSign (f.sign y) (f.mag x), 0))
def execFsgnjn (d a b : Fin 32) (t u : Bool) (p : Fin 4) (s : State) : Out :=
  s.fp2 d a b t u p 0 (fun f x y => (f.withSign (!f.sign y) (f.mag x), 0))
def execFsgnjx (d a b : Fin 32) (t u : Bool) (p : Fin 4) (s : State) : Out :=
  s.fp2 d a b t u p 0 (fun f x y => (f.withSign (f.sign x != f.sign y) (f.mag x), 0))

/-- FMA: `np` negates the product, `nc` the addend (R175, 05_encoding R116). The three sources block on empty. -/
def State.fused (s : State) (d a b c : Fin 32) (p : Bool) (r : Fin 8) (np nc : Bool) : Out :=
  s.gated [(a, false), (b, false), (c, false)] d false (fun s =>
    let f := fmtOf (boolNat p)
    s.floatTo d 0 (f.fmaBits (s.roundMode r.val) np nc (f.bits (s.reg a)) (f.bits (s.reg b)) (f.bits (s.reg c))))

def execFma (d a b c : Fin 32) (p : Bool) (r : Fin 8) (s : State) : Out := s.fused d a b c p r false false
def execFms (d a b c : Fin 32) (p : Bool) (r : Fin 8) (s : State) : Out := s.fused d a b c p r false true
def execFnms (d a b c : Fin 32) (p : Bool) (r : Fin 8) (s : State) : Out := s.fused d a b c p r true false
def execFnma (d a b c : Fin 32) (p : Bool) (r : Fin 8) (s : State) : Out := s.fused d a b c p r true true

/-- Bits of the integer width code `w`. -/
def intWidth (w : Nat) : Nat := 8 * 2 ^ w

/-- The operand of a conversion: source format code `y`, integer width code `w` (05_encoding R117). -/
def convertSource (y w : Nat) (v : Word) : Num × Bool :=
  if y < 4 then ((fmtOf y).num ((fmtOf y).bits v), (fmtOf y).isSnan ((fmtOf y).bits v))
  else if y = 4 then (decodeTapered 8 (v.toNat % 256), false)
  else if y = 5 then (decodeTapered 6 (v.toNat % 64), false)
  else
    let n := v.toNat % 2 ^ intWidth w
    let i : Int := if y = 6 then signedField n (intWidth w) else n
    (.fin (exactOfInt i 0), false)

/-- The conversion (Table 7-6): destination code `x`; an integer result is extended to 64 bits by its sign or with
zeros. -/
def convertValue (x y w rm : Nat) (v : Word) : Nat × Nat :=
  let src := convertSource y w v
  if x < 4 then
    if y < 4 then convertFloat (fmtOf y) (fmtOf x) rm ((fmtOf y).bits v)
    else match src.1 with
      | .nan => ((fmtOf x).nan, 0)
      | .inf neg => ((fmtOf x).withSign neg (fmtOf x).inf, 0)
      | .fin e => (fmtOf x).round rm e
  else if x = 4 then toTapered 8 src.1 src.2
  else if x = 5 then toTapered 6 src.1 src.2
  else
    let r := toInteger (x = 6) (intWidth w) rm src.1
    if x = 6 then ((sext64 r.1 (intWidth w)).toNat, r.2) else r

def execFcvt (d a : Fin 32) (w : Fin 4) (t : Bool) (x y r : Fin 8) (s : State) : Out :=
  s.gated [(a, t)] d false (fun s =>
    s.floatTo d 0 (convertValue x.val y.val w.val (s.roundMode r.val) (s.reg a)))

end Machine
end Sys2Proof
end

