-- ==== Sys2Proof/Machine/Sfu.lean ====
section
/-!
DEFINITION. The transcendentals (07_numbers R177, R178). The true value is enclosed from below with far more bits
than any format has, in fixed point with `P` fraction bits; a result that the manual rounds to nearest is then
rounded once, and for the others the two bracketing values are judged by the largest error of Table 7-8.
-/
namespace Sys2Proof
namespace Machine

/-! ## Series in fixed point, P fraction bits -/

/-- 1 + r + r^2/2! + …: `fuel` terms. -/
def expLoop (P r : Nat) : Nat → Nat → Nat → Nat → Nat
  | 0, _, _, acc => acc
  | fuel + 1, n, term, acc =>
    let t := term * r / 2 ^ P / n
    expLoop P r fuel (n + 1) t (acc + t)

/-- e^r for 0 ≤ r < 1. -/
def expFix (P r : Nat) : Nat := expLoop P r (P / 4 + 32) 1 (2 ^ P) (2 ^ P)

/-- z + z^3/3 + z^5/5 + …: `zz` is z^2. -/
def atanhLoop (P zz : Nat) : Nat → Nat → Nat → Nat → Nat
  | 0, _, _, acc => acc
  | fuel + 1, k, zp, acc => atanhLoop P zz fuel (k + 2) (zp * zz / 2 ^ P) (acc + zp / k)

/-- artanh z for 0 ≤ z ≤ 1/3. -/
def atanhFix (P z : Nat) : Nat := atanhLoop P (z * z / 2 ^ P) (P / 3 + 16) 1 z 0

def ln2Fix (P : Nat) : Nat := 2 * atanhFix P (2 ^ P / 3)

/-- 1/n - 1/(3 n^3) + …: the signed sum. -/
def atanInvLoop (n : Nat) : Nat → Nat → Nat → Bool → Int → Int
  | 0, _, _, _, acc => acc
  | fuel + 1, k, p, neg, acc =>
    let t : Int := (p / k : Nat)
    atanInvLoop n fuel (k + 2) (p / (n * n)) (!neg) (if neg then acc - t else acc + t)

/-- pi by Machin's formula. -/
def piFix (P : Nat) : Nat :=
  let at' := fun n => atanInvLoop n (P / 4 + 16) 1 (2 ^ P / n) false 0
  (16 * at' 5 - 4 * at' 239).toNat

/-- The alternating series whose terms come from a rule; sine from r, cosine from 1. -/
def trigLoop (P rr : Nat) : Nat → Nat → Nat → Bool → Int → Int
  | 0, _, _, _, acc => acc
  | fuel + 1, k, t, neg, acc =>
    trigLoop P rr fuel (k + 2) (t * rr / 2 ^ P / (k * (k + 1))) (!neg) (if neg then acc - (t : Int) else acc + (t : Int))

def sinFix (P r : Nat) : Int := trigLoop P (r * r / 2 ^ P) (P / 4 + 32) 2 r false 0
def cosFix (P r : Nat) : Int := trigLoop P (r * r / 2 ^ P) (P / 4 + 32) 1 (2 ^ P) false 0

/-- The sum of (-1)^n x^(2n+1) / (n! (2n+1)). -/
def erfLoop (P xx : Nat) : Nat → Nat → Nat → Bool → Int → Int
  | 0, _, _, _, acc => acc
  | fuel + 1, n, t, neg, acc =>
    let u : Int := (t / (2 * n + 1) : Nat)
    erfLoop P xx fuel (n + 1) (t * xx / 2 ^ P / (n + 1)) (!neg) (if neg then acc - u else acc + u)

/-! ## Enclosures -/

/-- Working precision: the operand is an exact multiple of 2^-P, with more than 150 bits to spare. -/
def sfuPrec (f : Fmt) : Nat := if f = fp64 then 1464 else 320

/-- A computed value, whose error is far below 2^24 units, as a lower bound of the true one. -/
def lowerBound (i : Int) (e : Int) : Exact := ⟨decide (i < 0), i.natAbs - 2 ^ 24, e, true⟩

/-- |x| with P fraction bits. -/
def Exact.fix (x : Exact) (P : Nat) : Nat := x.m * 2 ^ (x.e + P).toNat
def Exact.top (x : Exact) : Int := x.e + (bitLen x.m : Int) - 1

/-- e^y for a fixed-point y: mantissa in [1, 2) with P bits, and the exponent. -/
def expSplit (P : Nat) (y : Int) : Nat × Int :=
  let l : Int := ln2Fix P
  (expFix P (y % l).toNat, y / l)

/-- e^-y with P bits. -/
def expNeg (P y : Nat) : Nat :=
  let r := expSplit P (-(y : Int))
  r.1 / 2 ^ (-r.2).toNat

/-- Past the range of every format. -/
def hugeExact : Exact := ⟨false, 1, 65536, true⟩
def tinyExact : Exact := ⟨false, 1, -65536, true⟩
/-- Just below 1. -/
def belowOne (P : Nat) (neg : Bool) : Exact := ⟨neg, 2 ^ P - 1, -(P : Int), true⟩

/-- Sine and cosine: reduction by pi/2 is exact to the working precision for every finite operand (R178). -/
def trigExact (P : Nat) (x : Exact) (cosine : Bool) : Exact :=
  let Q := P + (x.top + 8).toNat
  let hp := piFix Q / 2
  let X := x.fix Q
  let n := X / hp % 4
  let r := X % hp / 2 ^ (Q - P)
  let k := if cosine then n + 1 else n
  let v := if k % 2 = 0 then sinFix P r else cosFix P r
  let v := if k % 4 < 2 then v else -v
  let b := lowerBound v (-(P : Int))
  if cosine then b else { b with neg := b.neg != x.neg }

/-- Base-2 logarithm or, with `nat`, natural logarithm of a positive x that is no power of two (or, for the natural
one, not 1). -/
def logExact (P : Nat) (x : Exact) (nat : Bool) : Exact :=
  let k := x.top
  let y := x.m * 2 ^ (P + 1 - bitLen x.m)
  let l := 2 * atanhFix P ((y - 2 ^ P) * 2 ^ P / (y + 2 ^ P))
  let l2 := ln2Fix P
  let v : Int := if nat then l + k * l2 else (l * 2 ^ P / l2 : Nat) + k * (2 ^ P : Nat)
  lowerBound v (-(P : Int))

/-- A function of Table 7-8 at a finite non-zero operand; codes of 05_encoding Table 5-7, without FRCP and FRSQ. -/
def sfuValue (fn : Nat) (f : Fmt) (x : Exact) : Exact :=
  let P := sfuPrec f
  let ax := x.fix P
  let sx : Int := if x.neg then -(ax : Int) else ax
  match fn with
  | 0 =>
    if 16 ≤ x.top then (if x.neg then tinyExact else hugeExact)
    else
      let k := sx / (2 ^ P : Nat)
      let fr := (sx % (2 ^ P : Nat)).toNat
      if fr = 0 then ⟨false, 1, k, false⟩
      else lowerBound (expFix P (fr * ln2Fix P / 2 ^ P)) (k - P)
  | 1 => if x.m = 2 ^ (bitLen x.m - 1) then exactOfInt x.top 0 else logExact P x false
  | 2 =>
    if 16 ≤ x.top then (if x.neg then tinyExact else hugeExact)
    else
      let r := expSplit P sx
      lowerBound r.1 (r.2 - P)
  | 3 => if x.m = 2 ^ (bitLen x.m - 1) ∧ x.top = 0 then ⟨false, 0, 0, false⟩ else logExact P x true
  | 6 => trigExact P x false
  | 7 => trigExact P x true
  | 8 =>
    if 12 ≤ x.top then belowOne P x.neg
    else
      let E := expNeg P (2 * ax)
      let b := lowerBound ((2 ^ P - E) * 2 ^ P / (2 ^ P + E) : Nat) (-(P : Int))
      { b with neg := x.neg }
  | 9 =>
    if 16 ≤ x.top then (if x.neg then tinyExact else belowOne P false)
    else
      let E := expNeg P ax
      if x.neg then
        let r := expSplit P sx
        lowerBound (r.1 * 2 ^ P / (2 ^ P + E) : Nat) (r.2 - P)
      else lowerBound (2 ^ P * 2 ^ P / (2 ^ P + E) : Nat) (-(P : Int))
  | _ =>
    if 9 * 2 ^ P ≤ ax then belowOne P x.neg
    else
      let R := P + 160
      let X := x.fix R
      let v := erfLoop R (X * X / 2 ^ R) (P / 2 + 300) 0 X false 0
      let b := lowerBound (2 * v.toNat * 2 ^ R / isqrt (piFix R * 2 ^ R) / 2 ^ 160 : Nat) (-(P : Int))
      { b with neg := x.neg }

/-- Largest error in hundredths of an ulp (Table 7-8). -/
def sfuError (fn : Nat) (f : Fmt) : Nat :=
  let d := f = fp64
  match fn with
  | 0 => 51 | 1 => 51
  | 2 => if d then 51 else 52
  | 3 => if d then 51 else 52
  | 6 => if d then 52 else 53
  | 7 => if d then 52 else 53
  | 8 => if d then 55 else 60
  | 9 => if d then 55 else 60
  | _ => if d then 58 else 65

/-- The interval on which a function is monotone that holds an operand: one for most, half periods for sine and cosine. -/
def sfuPiece (fn : Nat) (f : Fmt) (x : Exact) : Nat :=
  if fn = 6 ∨ fn = 7 then
    let Q := sfuPrec f + (x.top + 8).toNat
    let n := x.fix Q / (piFix Q / 2)
    let h := if fn = 6 then (n + 1) / 2 else n / 2 + 1
    2 * h + (if x.neg && h != 0 then 1 else 0)
  else 0

/-- The result from the position of the true value between its two neighbours. Where Table 7-8 lets it be either, the
position from which it is the one of larger magnitude is a free value of the function, the format, the neighbours and the
interval `piece`, so that the computed function is monotone there (R177), also where the true value is exact and lies between
two values of the format. The position is known to within two parts in 2^64, which stand on the safe side. Past the largest finite value by an ulp it is an
infinity. -/
def sfuChoose (fn p piece : Nat) (f : Fmt) (x : Exact) : Nat × Nat :=
  let dn := f.round 1 x
  let up := f.round (if x.neg then 3 else 2) x
  if x.sticky = false ∧ dn.1 = up.1 then f.round 0 x
  else
    let y := x.guarded
    let (_, r, d) := scaleBits y.m (y.e - max (y.top - f.mb) f.qmin)
    let frac := r * 2 ^ 64 / d
    let okDn := (frac + 2) * 100 ≤ sfuError fn f * 2 ^ 64
    let okUp := (2 ^ 64 - frac) * 100 ≤ sfuError fn f * 2 ^ 64
    if (f.bias : Int) < y.top then up
    else if okDn && okUp then (if Config.sfuThreshold fn p dn.1 piece % 2 ^ 64 ≤ frac then up else dn)
    else if okDn then dn else up

/-- Special operands (Table 7-8): result and flags, or none for a finite operand to be computed. -/
def sfuSpecial (fn : Nat) (f : Fmt) (a : Nat) : Option (Nat × Nat) :=
  let neg := f.sign a
  let one := f.bias * 2 ^ f.mb
  if f.isNan a then some (f.quiet a, f.snanFlag [a])
  else match fn with
    | 0 => if f.isInf a then some (if neg then 0 else f.inf, 0) else if f.isZero a then some (one, 0) else none
    | 2 => if f.isInf a then some (if neg then 0 else f.inf, 0) else if f.isZero a then some (one, 0) else none
    | 1 => if f.isZero a then some (f.withSign true f.inf, 8) else if neg then some f.invalid
      else if f.isInf a then some (a, 0) else none
    | 3 => if f.isZero a then some (f.withSign true f.inf, 8) else if neg then some f.invalid
      else if f.isInf a then some (a, 0) else none
    | 4 => if f.isZero a then some (f.withSign neg f.inf, 8) else if f.isInf a then some (f.withSign neg 0, 0)
      else none
    | 5 => if f.isZero a then some (f.withSign neg f.inf, 8) else if neg then some f.invalid
      else if f.isInf a then some (0, 0) else none
    | 7 => if f.isInf a then some f.invalid else if f.isZero a then some (one, 0) else none
    | 6 => if f.isInf a then some f.invalid else if f.isZero a then some (a, 0) else none
    | 9 => if f.isInf a then some (if neg then 0 else one, 0) else if f.isZero a then some (one - 2 ^ f.mb, 0) else none
    | _ => if f.isInf a then some (f.withSign neg one, 0) else if f.isZero a then some (a, 0) else none

/-- 1/sqrt x with sticky: the floor of a root of a floor, exact only when its square gives back 1/x. -/
def rsqrtExact (guard : Nat) (x : Exact) : Exact :=
  let odd := x.e % 2 != 0
  let m := if odd then x.m * 2 else x.m
  let e := if odd then x.e - 1 else x.e
  let k := guard + bitLen m
  let r := isqrt (2 ^ (2 * k) / m)
  ⟨false, r, -(e / 2) - k, r * r * m != 2 ^ (2 * k)⟩

/-- The result and flags of a transcendental: function code, format code, operand bits (R177, R178). FRCP and FRSQ
and every FP16 and BF16 result are the true value rounded to nearest. -/
def sfu (fn p a : Nat) : Nat × Nat :=
  let f := fmtOf p
  match sfuSpecial fn f a with
  | some r => r
  | none =>
    let x := f.finite a
    if fn = 4 then f.round 0 ((⟨false, 1, 0, false⟩ : Exact).div (2 * f.mb + 8) x)
    else if fn = 5 then f.round 0 (rsqrtExact (f.mb + 8) x)
    else if 2 ≤ p then f.round 0 (sfuValue fn f x)
    else sfuChoose fn p (sfuPiece fn f x) f (sfuValue fn f x)

/-- A transcendental instruction; in FP64 it loses two turns (R173). -/
def State.sfuOp (s : State) (d a : Fin 32) (t : Bool) (p : Fin 4) (fn : Nat) : Out :=
  s.fp1 d a t p (if p = 0 then 2 else 0) (fun _ x => sfu fn p.val x)

def execFexp2 (d a : Fin 32) (t : Bool) (p : Fin 4) (s : State) : Out := s.sfuOp d a t p 0
def execFlog2 (d a : Fin 32) (t : Bool) (p : Fin 4) (s : State) : Out := s.sfuOp d a t p 1
def execFexp (d a : Fin 32) (t : Bool) (p : Fin 4) (s : State) : Out := s.sfuOp d a t p 2
def execFln (d a : Fin 32) (t : Bool) (p : Fin 4) (s : State) : Out := s.sfuOp d a t p 3
def execFrcp (d a : Fin 32) (t : Bool) (p : Fin 4) (s : State) : Out := s.sfuOp d a t p 4
def execFrsq (d a : Fin 32) (t : Bool) (p : Fin 4) (s : State) : Out := s.sfuOp d a t p 5
def execFsin (d a : Fin 32) (t : Bool) (p : Fin 4) (s : State) : Out := s.sfuOp d a t p 6
def execFcos (d a : Fin 32) (t : Bool) (p : Fin 4) (s : State) : Out := s.sfuOp d a t p 7
def execFtanh (d a : Fin 32) (t : Bool) (p : Fin 4) (s : State) : Out := s.sfuOp d a t p 8
def execFsigm (d a : Fin 32) (t : Bool) (p : Fin 4) (s : State) : Out := s.sfuOp d a t p 9
def execFerf (d a : Fin 32) (t : Bool) (p : Fin 4) (s : State) : Out := s.sfuOp d a t p 10

end Machine
end Sys2Proof
end

