-- ==== Sys2Proof/Machine/Vector.lean ====
section
/-!
DEFINITION. The lane pool (09_vector R215 to R228): claims, the checks of vector instructions, element-wise functions,
reductions, conversions, the exchange of the largest magnitude, and quantisation.
-/
namespace Sys2Proof
namespace Machine

/-! ## Element types (R119, R220) -/

/-- Bits of an element type: 0 FP32, 1 FP64, 2 BF16, 3 FP16, 4 int32, 5 int16, 6 int8. -/
def vbits (t : Nat) : Nat := match t with | 0 => 32 | 1 => 64 | 2 => 16 | 3 => 16 | 4 => 32 | 5 => 16 | _ => 8
def vfloat (t : Nat) : Bool := t < 4
/-- The format code of a floating element type. -/
def vcode (t : Nat) : Nat := match t with | 0 => 1 | 1 => 0 | 2 => 3 | _ => 2
def vfmt (t : Nat) : Fmt := fmtOf (vcode t)

/-- Lane `i` of vector register `v`. -/
def Slot.lane (x : Slot) (v i : Nat) : BitVec 32 := FMap.get 0 x.vreg (128 * v + i)
def Slot.setLane (x : Slot) (v i n : Nat) : Slot := { x with vreg := FMap.set (128 * v + i) (BitVec.ofNat 32 n) x.vreg }

/-- Element `i` of a type; an FP64 element takes two lanes. -/
def Slot.velem (x : Slot) (t v i : Nat) : Nat :=
  if t = 1 then (x.lane v (2 * i)).toNat + 2 ^ 32 * (x.lane v (2 * i + 1)).toNat
  else (x.lane v i).toNat % 2 ^ vbits t

def Slot.setElem (x : Slot) (t v i n : Nat) : Slot :=
  if t = 1 then (x.setLane v (2 * i) n).setLane v (2 * i + 1) (n / 2 ^ 32) else x.setLane v i (n % 2 ^ vbits t)

/-- The first elements of a register replaced; the others keep their values (R219). -/
def Slot.setElems (x : Slot) (t v : Nat) (l : List Nat) : Slot :=
  l.zipIdx.foldl (fun x e => x.setElem t v e.2 e.1) x

/-! ## Engine registers e0 and e1 (R218) -/

def Slot.engReg (x : Slot) (n : Nat) : Nat := (FMap.get 0 x.eng n).toNat
def Slot.vl (x : Slot) : Nat := x.engReg 0 % 256
def Slot.mtype (x : Slot) : Nat := fieldAt (x.engReg 1) 8 3
def Slot.lanes (x : Slot) : Nat := (x.claim.map (·.lanes)).getD 0

/-- The fields of e1 that an instruction uses. -/
inductive E1Use where
  | none | cmp (float : Bool) | mtype | mxw
deriving DecidableEq, Repr

/-- A reserved bit of e1 is set, or a used field holds a reserved value (R219 code 3). -/
def e1Bad (e1 : Nat) (u : E1Use) : Bool :=
  e1 / 2 ^ 32 != 0 || bitAt e1 15 || fieldAt e1 3 5 != 0 ||
  match u with
  | .none => false
  | .cmp float => if float then 4 ≤ e1 % 8 else 6 ≤ e1 % 8
  | .mtype => fieldAt e1 8 3 == 7
  | .mxw => 4 ≤ fieldAt e1 12 3

/-- The checks of a vector instruction in their order: the code of the first that fails, or 0 (R219). -/
def State.vecCheck (s : State) (wide : Bool) (u : E1Use) : Nat :=
  let x := s.curSlot
  match x.claim with
  | none => 1
  | some c =>
    if (if wide then c.lanes / 2 else c.lanes) < x.vl || x.engReg 0 / 256 != 0 then 2
    else if e1Bad (x.engReg 1) u then 3
    else 0

/-- The energy of lane elements (17_retire Table 17-3). -/
def State.chargeLanes (s : State) (n : Nat) (dear : Bool) : State :=
  s.charge (s.slotTask s.cur).id (n * if dear then 3200 else 800)

/-- A vector instruction past its issue conditions: the checks, then what it does. -/
def State.vecRun (s : State) (wide dear : Bool) (u : E1Use) (act : State → State) : State :=
  let code := s.vecCheck wide u
  if code ≠ 0 then s.trap 0x12 (BitVec.ofNat 64 code) else act (s.chargeLanes s.curSlot.vl (dear || wide))

/-! ## Element functions (R223, R226) -/

/-- The functions of Table 5-8 that act element by element: function, type, rounding mode, operands `a`, `b` and `d`;
`cmp` is the condition of `VCMP`. -/
def vecFn (fn t rm cmp a b d : Nat) : Nat × Nat :=
  let w := vbits t
  let f := vfmt t
  let sg := fun n => signedField n w
  let un := fun (i : Int) => ((i % (2 ^ w : Nat)).toNat, 0)
  match fn with
  | 0x00 => if vfloat t then f.addBits rm a b else un (a + b : Nat)
  | 0x01 => if vfloat t then f.subBits rm a b else un ((a : Int) - b)
  | 0x02 => if vfloat t then f.mulBits rm a b else un (a * b : Nat)
  | 0x03 => f.fmaBits rm false false a b d
  | 0x04 => if vfloat t then f.minMaxNum false a b else (if sg b < sg a then b else a, 0)
  | 0x05 => if vfloat t then f.minMaxNum true a b else (if sg a < sg b then b else a, 0)
  | 0x06 => (a &&& b, 0)
  | 0x07 => (a ||| b, 0)
  | 0x08 => (a ^^^ b, 0)
  | 0x09 => (a * 2 ^ (b % w) % 2 ^ w, 0)
  | 0x0A => (a / 2 ^ (b % w), 0)
  | 0x0B =>
    if vfloat t then
      match cmp with
      | 0 => f.eqBits a b
      | 1 => (1 - (f.eqBits a b).1, (f.eqBits a b).2)
      | 2 => f.ltBits a b
      | _ => f.leBits a b
    else (boolNat (match cmp with
      | 0 => a == b
      | 1 => a != b
      | 2 => decide (sg a < sg b)
      | 3 => decide (sg a ≤ sg b)
      | 4 => decide (a < b)
      | _ => decide (a ≤ b)), 0)
  | 0x0C => (if d ≠ 0 then a else b, 0)
  | 0x16 => sfu 2 (vcode t) a
  | 0x17 => sfu 3 (vcode t) a
  | 0x18 => sfu 4 (vcode t) a
  | 0x19 => sfu 5 (vcode t) a
  | 0x1A => sfu 8 (vcode t) a
  | _ => (a, 0)

/-- The union of flags. -/
def allFlags (l : List (Nat × Nat)) : Nat := l.foldl (fun n r => n ||| r.2) 0

/-- Ends an instruction that writes elements: flags, the trap of an enabled one, else the elements (R223). -/
def State.vecEnd (s : State) (t d : Nat) (rs : List (Nat × Nat)) : State :=
  s.floatEnd (allFlags rs) 0 (fun s => s.modCur (fun x => x.setElems t d (rs.map (·.1))))

/-- An element-wise instruction with v operands. -/
def State.elementWise (s : State) (fn d a b t : Nat) : Out :=
  s.gated [] 0 false (fun s => s.vecRun (t == 1) (0x16 ≤ fn) (if fn = 0x0B then .cmp (vfloat t) else .none) (fun s =>
    let x := s.curSlot
    let rm := s.roundMode 7
    let rs := (List.range x.vl).map (fun i =>
      vecFn fn t rm (x.engReg 1 % 8) (x.velem t a i) (x.velem t b i) (x.velem t d i))
    s.vecEnd t d rs))

def execVadd (d a b : Fin 16) (y : Fin 8) (s : State) : Out := s.elementWise 0x00 d a b y
def execVsub (d a b : Fin 16) (y : Fin 8) (s : State) : Out := s.elementWise 0x01 d a b y
def execVmul (d a b : Fin 16) (y : Fin 8) (s : State) : Out := s.elementWise 0x02 d a b y
def execVfma (d a b : Fin 16) (y : Fin 8) (s : State) : Out := s.elementWise 0x03 d a b y
def execVmin (d a b : Fin 16) (y : Fin 8) (s : State) : Out := s.elementWise 0x04 d a b y
def execVmax (d a b : Fin 16) (y : Fin 8) (s : State) : Out := s.elementWise 0x05 d a b y
def execVand (d a b : Fin 16) (y : Fin 8) (s : State) : Out := s.elementWise 0x06 d a b y
def execVor (d a b : Fin 16) (y : Fin 8) (s : State) : Out := s.elementWise 0x07 d a b y
def execVxor (d a b : Fin 16) (y : Fin 8) (s : State) : Out := s.elementWise 0x08 d a b y
def execVshl (d a b : Fin 16) (y : Fin 8) (s : State) : Out := s.elementWise 0x09 d a b y
def execVshr (d a b : Fin 16) (y : Fin 8) (s : State) : Out := s.elementWise 0x0A d a b y
def execVcmp (d a b : Fin 16) (y : Fin 8) (s : State) : Out := s.elementWise 0x0B d a b y
def execVsel (d a b : Fin 16) (y : Fin 8) (s : State) : Out := s.elementWise 0x0C d a b y
def execVmov (d a : Fin 16) (y : Fin 8) (s : State) : Out := s.elementWise 0x0E d a a y
def execVexp (d a : Fin 16) (y : Fin 8) (s : State) : Out := s.elementWise 0x16 d a a y
def execVln (d a : Fin 16) (y : Fin 8) (s : State) : Out := s.elementWise 0x17 d a a y
def execVrcp (d a : Fin 16) (y : Fin 8) (s : State) : Out := s.elementWise 0x18 d a a y
def execVrsq (d a : Fin 16) (y : Fin 8) (s : State) : Out := s.elementWise 0x19 d a a y
def execVtanh (d a : Fin 16) (y : Fin 8) (s : State) : Out := s.elementWise 0x1A d a a y

def execVperm (d a b : Fin 16) (y : Fin 8) (s : State) : Out :=
  s.gated [] 0 false (fun s => s.vecRun (y == 1) false .none (fun s =>
    let x := s.curSlot
    s.vecEnd y d ((List.range x.vl).map (fun i =>
      let j := x.velem y b i
      (if j < x.vl then x.velem y a j else 0, 0)))))

def execVbcst (d : Fin 16) (a : Fin 32) (t : Bool) (y : Fin 8) (s : State) : Out :=
  s.gated [(a, t)] 0 false (fun s => s.vecRun (y == 1) false .none (fun s =>
    s.vecEnd y d (List.replicate s.curSlot.vl (s.regNat a % 2 ^ vbits y, 0))))

/-! ## Reductions (R224, 07_numbers R183, R185) -/

/-- One level of the pairwise tree. -/
def treeLevel (node : Nat → Nat → Nat × Nat) : List Nat → List Nat × Nat
  | a :: b :: l =>
    let r := node a b
    let q := treeLevel node l
    (r.1 :: q.1, r.2 ||| q.2)
  | l => (l, 0)

/-- The tree over 2^m values: the result and the union of the nodes' flags. -/
def treeFold (node : Nat → Nat → Nat × Nat) : Nat → List Nat → Nat × Nat
  | 0, l => (l.headD 0, 0)
  | m + 1, l =>
    let q := treeLevel node l
    let r := treeFold node m q.1
    (r.1, r.2 ||| q.2)

/-- The exponent of the least power of two not below `n` (8 to 128). -/
def treeDepth (n : Nat) : Nat := if n ≤ 8 then 3 else if n ≤ 16 then 4 else if n ≤ 32 then 5 else if n ≤ 64 then 6 else 7

/-- The reduction of elements, padded to 2^m: `fn` 0 sum, 1 largest, 2 least. -/
def reduce (fn t rm m : Nat) (l : List Nat) : Nat × Nat :=
  let w := vbits t
  let f := vfmt t
  let fill := fun pad (l : List Nat) => l ++ List.replicate (2 ^ m - l.length) pad
  if vfloat t then
    if fn = 0 then
      if t ≤ 1 then treeFold (f.addBits 0) m (fill f.signBit l)
      else
        let wide := l.map (fun e => convertFloat f fp32 0 e)
        let r := treeFold (fp32.addBits 0) m (fill fp32.signBit (wide.map (·.1)))
        let z := convertFloat fp32 f rm r.1
        (z.1, z.2 ||| r.2 ||| allFlags wide)
    else treeFold (f.minMaxNum (fn == 1)) m (fill f.nan l)
  else
    let pad := if fn = 0 then 0 else if fn = 1 then 2 ^ (w - 1) else 2 ^ (w - 1) - 1
    treeFold (fun a b => vecFn (if fn = 0 then 0 else if fn = 1 then 5 else 4) t 0 0 a b 0) m (fill pad l)

/-- A reduction into g[rd]: a floating result zero-extended, an integer one sign-extended. -/
def State.reduction (s : State) (fn : Nat) (d : Fin 32) (a t : Nat) : Out :=
  s.gated [] d false (fun s => s.vecRun (t == 1) false .none (fun s =>
    let x := s.curSlot
    let r := reduce fn t (s.roundMode 7) (treeDepth x.lanes) ((List.range x.vl).map (x.velem t a))
    s.floatTo d 0 (if vfloat t then r else ((sext64 r.1 (vbits t)).toNat, r.2))))

def execVredadd (d : Fin 32) (a : Fin 16) (y : Fin 8) (s : State) : Out := s.reduction 0 d a y
def execVredmax (d : Fin 32) (a : Fin 16) (y : Fin 8) (s : State) : Out := s.reduction 1 d a y
def execVredmin (d : Fin 32) (a : Fin 16) (y : Fin 8) (s : State) : Out := s.reduction 2 d a y

/-! ## Conversion (R225) and quantisation (R228) -/

/-- The conversion code and integer width code of a type (05_encoding R117). -/
def convCode (t : Nat) : Nat × Nat :=
  match t with | 4 => (6, 2) | 5 => (6, 1) | 6 => (6, 0) | _ => (vcode t, 0)

def execVcvt (d a : Fin 16) (x y : Fin 8) (s : State) : Out :=
  s.gated [] 0 false (fun s => s.vecRun (x == 1 || y == 1) false .none (fun s =>
    let z := s.curSlot
    let w := max (convCode x).2 (convCode y).2
    s.vecEnd x d ((List.range z.vl).map (fun i =>
      let r := convertValue (convCode x).1 (convCode y).1 w (s.roundMode 7) (BitVec.ofNat 64 (z.velem y a i))
      (r.1 % 2 ^ vbits x, r.2)))))

/-- The exponent s of the shared scale, and the flag of a maximum that gives none. -/
def scaleExp (q : Int) (m : Nat) : Int × Nat :=
  if fp32.isZero m then (0, 0)
  else if fp32.isNan m || fp32.isInf m || fp32.sign m then (0, 16)
  else (q - (fp32.finite m).top, 0)

/-- A number times 2^k. -/
def Num.scale (v : Num) (k : Int) : Num :=
  match v with
  | .fin x => .fin { x with e := x.e + k }
  | v => v

def execVqnt (d a : Fin 16) (b : Fin 32) (u : Bool) (s : State) : Out :=
  s.gated [(b, u)] 0 false (fun s => s.vecRun false false .none (fun s =>
    let x := s.curSlot
    let t6 := bitAt (x.engReg 1) 11
    let k := scaleExp (if t6 then 1 else 3) (fp32.bits (s.reg b))
    s.vecEnd 0 d ((List.range x.vl).map (fun i =>
      let e := x.velem 0 a i
      let r := toTapered (if t6 then 6 else 8) ((fp32.num e).scale k.1) (fp32.isSnan e)
      (r.1, r.2 ||| k.2)))))

/-! ## Claims (R215 to R217) -/

/-- Register sets of a lane group that are free. -/
def State.freeSets (s : State) (q g : Nat) : Nat :=
  16 - (s.slots.filter (fun e => clusterOfSlot e.1 == q && e.2.claim.any (fun c => c.groups.contains g))).length

/-- The groups that a grant of `n` groups takes: most free sets first, then lowest number; listed in rising order. -/
def State.grantGroups (s : State) (q n : Nat) : List Nat :=
  let order := (List.range 16).flatMap (fun i => (List.range 16).filter (fun g => s.freeSets q g = 16 - i))
  let taken := order.take n
  (List.range 16).filter taken.contains

/-- Lane groups wanted for a request. -/
def wantGroups (r : Nat) : Nat := (min (max r 1) 128 + 7) / 8

/-- The other slot of a checked pair that stands for the same slot of the task (15_interrupts R377). -/
def State.twin (s : State) (k : Nat) : Option Nat :=
  match (s.slotAt k).bind with
  | some b =>
    if (s.taskAt b.task).paired then (s.slots.find? (fun e => e.2.bind == some { b with secondary := !b.secondary })).map (·.1)
    else none
  | none => none

def Slot.claimed (x : Slot) (gs : List Nat) : Slot :=
  { x with claim := if gs.isEmpty then none else some ⟨8 * gs.length, gs⟩ }

/-- Grants up to `n` groups to a slot, and as many to its twin. -/
def State.grantUpTo (s : State) (k : Nat) : Nat → State
  | 0 => s.modSlot k (fun x => x.claimed [])
  | n + 1 =>
    let q := clusterOfSlot k
    let gs := s.grantGroups q (n + 1)
    let s' := s.modSlot k (fun x => x.claimed gs)
    match s.twin k with
    | none => s'
    | some k2 =>
      let gs2 := s'.grantGroups (clusterOfSlot k2) (n + 1)
      if gs2.length = gs.length then s'.modSlot k2 (fun x => x.claimed gs2) else s.grantUpTo k n

/-- The claim of a slot and its twin released. -/
def State.releaseClaim (s : State) (k : Nat) : State :=
  (k :: (s.twin k).toList).foldl (fun s k => s.modSlot k (fun x => { x with claim := none })) s

/-- Lanes from `n` on read zero again. -/
def Slot.keepLanes (x : Slot) (n : Nat) : Slot := { x with vreg := x.vreg.filter (fun e => e.1 % 128 < n) }

def execVclaim (d a : Fin 32) (t : Bool) (s : State) : Out :=
  s.gated [(a, t)] d false (fun s =>
    if s.curSlot.claim.isSome then s.trap 0x12 4
    else
      let r := s.regNat a
      let s := s.grantUpTo s.cur (wantGroups r)
      let L := s.curSlot.lanes
      s.modCur (fun x => ((if L = 0 then x else x.keepLanes 0).setReg d (BitVec.ofNat 64 L)).retire))

/-- A new grant for a slot that held `L0` lanes (R216, R217). -/
def State.renegotiate (s : State) (k n : Nat) : State :=
  let L0 := (s.slotAt k).lanes
  let s := (s.releaseClaim k).grantUpTo k n
  s.modSlot k (fun x => { x.keepLanes (min L0 x.lanes) with
    eng := FMap.set 0 (BitVec.ofNat 64 (min (x.engReg 0) x.lanes)) x.eng })

def execVreneg (d a : Fin 32) (t : Bool) (s : State) : Out :=
  s.gated [(a, t)] d false (fun s =>
    let s := s.renegotiate s.cur (wantGroups (s.regNat a))
    s.modCur (fun x => (x.setReg d (BitVec.ofNat 64 x.lanes)).retire))

def execVrel (s : State) : Out :=
  s.gated [] 0 false (fun s => (s.releaseClaim s.cur).retire)

/-! ## The exchange (R227) -/

/-- The largest magnitude of elements, with NV for each NaN skipped. -/
def largestMagnitude (l : List Nat) : Nat × Nat :=
  l.foldl (fun r e => if fp32.isNan e then (r.1, 16) else (max r.1 (fp32.mag e), r.2)) (0, 0)

/-- The key of an exchange: MXTAG, MXCORES and MXW, and the count of a core's exchanges under it. -/
def mxKey (core e1 : Nat) : Nat := core % 8 * 2 ^ 19 + fieldAt e1 24 8 * 2 ^ 11 + fieldAt e1 16 8 * 2 ^ 3 + fieldAt e1 12 3

/-- The first cluster of the group of `w` clusters of a mesh row. -/
def mxFirst (q w : Nat) : Nat := q - q % 8 % w

/-- Exchanges to which a core of the cluster has contributed. -/
def State.openExchanges (s : State) (q : Nat) : Nat :=
  ((List.range 8).map (fun i =>
    ((s.clusterAt (q - q % 8 + i)).exchanges.filter (fun e => e.joined.any (fun j => j.core / 8 == q))).length)).foldl (· + ·) 0

/-- The participants of an exchange. -/
def Exchange.size (e : Exchange) : Nat := e.width * ((List.range 8).filter (bitAt e.cores)).length

/-- A completed exchange gives every participant the largest contribution. -/
def State.completeExchange (s : State) (q0 : Nat) (e : Exchange) : State :=
  let v := e.joined.foldl (fun m j => max m j.bits) 0
  let s := s.modCluster q0 (fun c => { c with exchanges := c.exchanges.filter (fun x => x != e) })
  e.joined.foldl (fun s j => s.produce j.who j.reg (BitVec.ofNat 64 v)) s

def execVmaxx (d : Fin 32) (a : Fin 16) (s : State) : Out :=
  s.gated [] d false (fun s =>
    let code := s.vecCheck false .mxw
    let x := s.curSlot
    let e1 := x.engReg 1
    let core := coreOfSlot s.cur
    let q := clusterOfCore core
    if code ≠ 0 then s.trap 0x12 (BitVec.ofNat 64 code)
    else if !bitAt (fieldAt e1 16 8) (core % 8) then s.trap 0x12 6
    else
      let w := 2 ^ fieldAt e1 12 3
      let q0 := mxFirst q w
      let key := mxKey core e1
      let n := FMap.get 0 (s.clusterAt q).xcount key
      let same := fun (e : Exchange) =>
        e.tag == fieldAt e1 24 8 && e.width == w && e.cores == fieldAt e1 16 8 && e.nth == n
      let found := (s.clusterAt q0).exchanges.find? same
      let opens := !(found.any (fun e => e.joined.any (fun j => j.core / 8 == q)))
      if opens && 8 ≤ s.openExchanges q then s.bubble
      else
        let m := largestMagnitude ((List.range x.vl).map (x.velem 0 a))
        let old : Exchange := found.getD ⟨fieldAt e1 24 8, w, fieldAt e1 16 8, n, []⟩
        let new : Exchange := { old with joined := old.joined ++ [⟨core, x.who, d, m.1⟩] }
        (s.chargeLanes x.vl false).floatEnd m.2 0 (fun s =>
          let s := s.modCluster q (fun c => { c with xcount := FMap.set key (n + 1) c.xcount })
          let s := s.modCluster q0 (fun c => { c with exchanges := c.exchanges.filter (fun e => !same e) ++ [new] })
          let s := s.modCur (fun x => x.setSt d .pending)
          if new.joined.length < new.size then s else s.completeExchange q0 new))

end Machine
end Sys2Proof
end

