-- ==== Sys2Proof/Machine/VecMem.lean ====
section
/-!
DEFINITION. Vector memory (09_vector R229 to R235): unit-stride, strided and indexed loads and stores, the progress
index, and chained passes.
-/
namespace Sys2Proof
namespace Machine

/-! ## Stored elements (R230) -/

/-- Bytes of an element type. -/
def vbytes (t : Nat) : Nat := vbits t / 8

/-- The range holds the type's bytes as they are: EFMT 0 or the type's own. -/
def Range.plainFor (e : Range) (t : Nat) : Bool :=
  e.efmt == 0 || (t == 0 && e.efmt == 1) || (t == 1 && e.efmt == 9) || (t == 2 && e.efmt == 3) ||
    (t == 3 && e.efmt == 2) || (t == 6 && e.efmt == 10)

/-- A narrower format that a load widens to FP32. -/
def Range.widens (e : Range) (t : Nat) : Bool := t == 0 && 2 ≤ e.efmt && e.efmt ≤ 8

/-- Bytes of a stored element: of the decoded image for T8, T6, FP16, BF16 and the codebooks. -/
def Range.storedBytes (e : Range) (t : Nat) : Nat :=
  if e.widens t then (if e.efmt = 4 ∨ e.efmt = 5 then 1 else 2) else vbytes t

/-- The range that holds an address of slot `k`. -/
def State.rangeAt (s : State) (k v : Nat) : Option Range :=
  (s.translate (dieOfSlot k) (s.asidOf k) v 1).map (·.1)

/-- Stored width at an address, the type's own where nothing translates it. -/
def State.storedAt (s : State) (k t v : Nat) : Nat := ((s.rangeAt k v).map (fun e => e.storedBytes t)).getD (vbytes t)

/-- A place a vector access may reach: the slot's own LM, or memory (R229). -/
def State.vecTarget (s : State) (k spa : Nat) : Bool :=
  let h := s.homeFor k spa
  h.own k .lm || h.win == .dram

/-- The target of an element: that of its address, or, in a decoded range, of each of its raw bytes (R187, R191). -/
def State.elemTarget (s : State) (k t : Nat) (store : Bool) (e : Range) (v spa : Nat) : Bool :=
  if !store && e.widens t && e.decoded then
    (e.rawBytes ((v - e.base * 65536) / e.elemBytes)).all (fun i => s.vecTarget k (e.start + i))
  else s.vecTarget k spa

/-- The check of one element: R189, the pairing of a load's range with the type, then the target. -/
def State.checkElem (s : State) (k t : Nat) (store : Bool) (v : Word) : Except TrapInfo (Range × Nat) :=
  let w := if store then vbytes t else s.storedAt k t v.toNat
  match s.checkAccess k v w (if store then .write else .read) with
  | .error e => .error e
  | .ok (e, spa) =>
    if !store && !(e.plainFor t || e.widens t) then .error ⟨0x12, 5⟩
    else if s.elemTarget k t store e v.toNat spa then .ok (e, spa)
    else .error ⟨0x0C, v⟩

/-- The first fault among elements at the given addresses. -/
def State.firstFault (s : State) (k t : Nat) (store : Bool) : List Word → Option TrapInfo
  | [] => none
  | v :: vs =>
    match s.checkElem k t store v with
    | .error e => some e
    | .ok _ => s.firstFault k t store vs

/-- A number of a narrow format widened to FP32: the value, and a NaN's payload, stand unchanged. -/
def widenTo32 (f : Fmt) (x : Nat) : Nat :=
  if f.isNan x then fp32.withSign (f.sign x) (fp32.inf + x % 2 ^ f.mb * 2 ^ (23 - f.mb)) else (convertFloat f fp32 0 x).1

/-- The image element's bits as FP32 (R230). -/
def Range.widened (e : Range) (x : Nat) : Nat :=
  match e.efmt with
  | 2 => widenTo32 fp16 x
  | 3 => widenTo32 bf16 x
  | 4 => (fromTapered 8 fp32 0 x).1
  | 5 => (fromTapered 6 fp32 0 x).1
  | _ => widenTo32 (if e.tblfmt then fp16 else bf16) x

/-- Raw bytes of a range by their offsets. -/
def State.readRaw (s : State) (k : Nat) (e : Range) : List Nat → Got (FMap Byte)
  | [] => .ok s []
  | i :: is =>
    (s.readSpa k (BitVec.ofNat 64 (e.base * 65536 + i)) (e.start + i) 1).bind (fun s bs =>
      (s.readRaw k e is).bind (fun s m => .ok s ((i, bs.headD 0) :: m)))

/-- The image element at an address of a decoded range; a codebook index is looked up in the slot's core, and waits
while its entry is empty (08_memory_ops R191, R192). -/
def State.readImage (s : State) (k : Nat) (e : Range) (v : Nat) : Got Nat :=
  let n := (v - e.base * 65536) / e.elemBytes
  (s.readRaw k e (e.rawBytes n)).bind (fun s m =>
    let code := e.codeOf (fun i => FMap.get 0 m i) n
    if e.codebook then
      let t := e.entryOf n code
      let c := s.coreAt (coreOfSlot k)
      if c.tblFull.contains t then .ok s (c.tblAt t) else .wait
    else .ok s code)

/-- A checked element read as bits of the type. -/
def State.readElem (s : State) (k t : Nat) (v : Word) : Got Nat :=
  match s.checkElem k t false v with
  | .error e => .trap e
  | .ok (e, spa) =>
    if e.widens t then
      if e.decoded then (s.readImage k e v.toNat).bind (fun s x => .ok s (e.widened x))
      else (s.readSpa k v spa (e.storedBytes t)).bind (fun s bs => .ok s (e.widened (leNat bs)))
    else (s.readSpa k v spa (vbytes t)).bind (fun s bs => .ok s (leNat bs))

def State.readElems (s : State) (k t : Nat) : List Word → Got (List Nat)
  | [] => .ok s []
  | v :: vs => (s.readElem k t v).bind (fun s x => (s.readElems k t vs).bind (fun s xs => .ok s (x :: xs)))

def State.writeElem (s : State) (k t : Nat) (v : Word) (x : Nat) : Got Unit :=
  match s.checkElem k t true v with
  | .error e => .trap e
  | .ok (_, spa) => s.writeSpa k v spa (leBytes (vbytes t) x)

def State.writeElems (s : State) (k t : Nat) : List (Word × Nat) → Got Unit
  | [] => .ok s ()
  | e :: es => (s.writeElem k t e.1 e.2).bind (fun s _ => s.writeElems k t es)

/-! ## Unit-stride and strided accesses (R229, R231) -/

/-- Addresses of the elements: base plus i times a stride. -/
def strideAddrs (base stride : Word) (n : Nat) : List Word :=
  (List.range n).map (fun i => base + BitVec.ofNat 64 i * stride)

/-- The checks of a vector memory instruction. -/
def State.vecMem (s : State) (act : Nat → State → State) : State :=
  let t := s.curSlot.mtype
  let code := s.vecCheck (t == 1) .mtype
  if code ≠ 0 then s.trap 0x12 (BitVec.ofNat 64 code) else act t s

def State.vecLoad (s : State) (d t : Nat) (addrs : List Word) : State :=
  match s.firstFault s.cur t false addrs with
  | some f => s.trapOf f
  | none => s.withGot (s.readElems s.cur t addrs) (fun s l => s.modCur (fun x => (x.setElems t d l).retire))

def State.vecStore (s : State) (d t : Nat) (addrs : List Word) : State :=
  match s.firstFault s.cur t true addrs with
  | some f => s.trapOf f
  | none =>
    let x := s.curSlot
    s.withGot (s.writeElems s.cur t (addrs.zipIdx.map (fun e => (e.1, x.velem t d e.2)))) (fun s _ => s.retire)

/-- `VLD`. The stored width d of the base address's range spaces all elements, also where they run into a range of another
width, of which R229 says nothing (log entry 121). -/
def execVld (d : Fin 16) (a : Fin 32) (t : Bool) (s : State) : Out :=
  s.gated [(a, t)] 0 false (fun s => s.vecMem (fun y s =>
    let w := s.storedAt s.cur y (s.regNat a)
    s.vecLoad d y (strideAddrs (s.reg a) (BitVec.ofNat 64 w) s.curSlot.vl)))

def execVlds (d : Fin 16) (a b : Fin 32) (t u : Bool) (s : State) : Out :=
  s.gated [(a, t), (b, u)] 0 false (fun s => s.vecMem (fun y s =>
    s.vecLoad d y (strideAddrs (s.reg a) (s.reg b) s.curSlot.vl)))

def execVst (d : Fin 16) (a : Fin 32) (t : Bool) (s : State) : Out :=
  s.gated [(a, t)] 0 false (fun s => s.vecMem (fun y s =>
    s.vecStore d y (strideAddrs (s.reg a) (BitVec.ofNat 64 (vbytes y)) s.curSlot.vl)))

def execVsts (d : Fin 16) (a b : Fin 32) (t u : Bool) (s : State) : Out :=
  s.gated [(a, t), (b, u)] 0 false (fun s => s.vecMem (fun y s =>
    s.vecStore d y (strideAddrs (s.reg a) (s.reg b) s.curSlot.vl)))

/-! ## The progress index (R233, 15_interrupts R364) -/

/-- Where an interruptible instruction at the slot's pc starts. -/
def Slot.startAt (x : Slot) : Nat := if x.pixAt = some x.pc then x.pix.toNat else 0
def Slot.setPix (x : Slot) (n : Nat) : Slot := { x with pix := BitVec.ofNat 64 n, pixAt := some x.pc }
def Slot.clearPix (x : Slot) : Slot := { x with pix := 0, pixAt := none }

/-- An interruptible instruction issued in a handler is illegal: tval is its word (R364). -/
def State.outsideHandler (s : State) (i : Instr) (act : State → Out) : Out :=
  if s.curSlot.intrap then .next (s.trap 0x01 (BitVec.ofNat 64 ((encode i).getD 0))) else act s

/-! ## Indexed accesses (R232) -/

/-- The address of element `i`: base plus lane `i` of the index register. -/
def Slot.indexed (x : Slot) (base : Word) (b i : Nat) : Word := base + (x.lane b i).setWidth 64

/-- The instruction waits at element `i`: it stays held and is issued again, but for a slot that has been stopped, which this
is a pause point of (15_interrupts R368). -/
def Slot.waitPix (x : Slot) (i : Nat) : Slot :=
  let y := (x.setPix i).stay
  if x.stopped then { y with reissue := false } else y

/-- Elements from `i` on, one at a time; a wait or a fault leaves the progress index at its element. -/
def State.indexedLoop (s : State) (one : State → Nat → Got (State → State)) : Nat → Nat → State
  | 0, _ => s.modCur (fun x => x.clearPix.retire)
  | n + 1, i =>
    match one s i with
    | .ok s' f => (f s').indexedLoop one n (i + 1)
    | .trap t => (s.modCur (fun x => x.setPix i)).trapOf t
    | .bad (some t) h a e => ((s.modCur (fun x => x.setPix i)).trapOf t).eccFound (s.slotTask s.cur).id h a e
    | .bad none h a e => (s.modCur (fun x => x.waitPix i)).eccFound (s.slotTask s.cur).id h a e
    | .wait => s.modCur (fun x => x.waitPix i)
    | .block => s.modCur (fun x => { x.waitPix i with blocked := true })
    | .full c l => (s.tryWays c l).modCur (fun x => x.waitPix i)

def execVgth (d : Fin 16) (a : Fin 32) (b : Fin 16) (t : Bool) (s : State) : Out :=
  s.outsideHandler (.vgth d a b t) (fun s => s.gated [(a, t)] 0 false (fun s => s.vecMem (fun y s =>
    let i := s.curSlot.startAt
    s.indexedLoop (fun s i =>
      (s.readElem s.cur y (s.curSlot.indexed (s.reg a) b i)).bind (fun s e =>
        .ok s (fun s => s.modCur (fun x => x.setElem y d i e)))) (s.curSlot.vl - i) i)))

def execVsct (d : Fin 16) (a : Fin 32) (b : Fin 16) (t : Bool) (s : State) : Out :=
  s.outsideHandler (.vsct d a b t) (fun s => s.gated [(a, t)] 0 false (fun s => s.vecMem (fun y s =>
    let i := s.curSlot.startAt
    s.indexedLoop (fun s i =>
      (s.writeElem s.cur y (s.curSlot.indexed (s.reg a) b i) (s.curSlot.velem y d i)).bind (fun s _ =>
        .ok s (fun s => s))) (s.curSlot.vl - i) i)))

/-! ## Chained passes (R234, R235) -/

/-- Fields of a chain descriptor. -/
def chainNel (c : Nat) : Nat := fieldAt c 0 32
def chainOps (c : Nat) : Nat := fieldAt c 32 3 + 1
def chainType (c : Nat) : Nat := fieldAt c 36 3
def chainOp (c k : Nat) : Nat := fieldAt c (256 + 16 * k) 16
def chainConst (c k : Nat) : Nat := fieldAt c (512 + 64 * k) 64

def chainHeaderBad (c : Nat) : Bool :=
  chainNel c == 0 || 16777216 < chainNel c || bitAt c 35 || chainType c == 7 || fieldAt c 39 25 != 0 ||
    fieldAt c 384 128 != 0

/-- A bad op: a function or type that is not allowed, an operand that does not fit, a reserved bit, or SRC1 absent. -/
def chainOpBad (c k : Nat) : Bool :=
  let o := chainOp c k
  let fn := o % 64
  let arg := fieldAt o 6 2
  let t := chainType c
  let unary := 0x16 ≤ fn && fn ≤ 0x1A
  let known := fn ≤ 0x0A || unary
  let typed := if fn = 3 ∨ unary then vfloat t else if 6 ≤ fn then !vfloat t else true
  !known || !typed || (unary != (arg == 0)) || o / 256 != 0 || (arg == 1 && fieldAt c 128 64 == 0)

/-- tval of the chain fault that a descriptor raises, if any. Entries of OPS beyond NOPS are not looked at, their reserved
bits included: R234 does not say whether they count (log entry 121). -/
def chainBad (c : Nat) : Option Nat :=
  if chainHeaderBad c then some 8 else (List.range (chainOps c)).find? (chainOpBad c)

/-- The second stream is read. -/
def chainReads1 (c : Nat) : Bool := (List.range (chainOps c)).any (fun k => fieldAt (chainOp c k) 6 2 == 1)

/-- One element through the ops: result and flags. -/
def chainElem (c rm x0 y : Nat) : Nat × Nat :=
  let t := chainType c
  (List.range (chainOps c)).foldl (fun r k =>
    let o := chainOp c k
    let ck := chainConst c k % 2 ^ vbits t
    let arg := match fieldAt o 6 2 with | 1 => y | 2 => ck | 3 => r.1 | _ => 0
    let q := vecFn (o % 64) t rm 0 r.1 arg ck
    (q.1, r.2 ||| q.2)) (x0, 0)

/-- Addresses of the elements `i` to `i + n - 1` of a stream of the type. -/
def chainAddrs (base w i n : Nat) : List Word :=
  (List.range n).map (fun j => BitVec.ofNat 64 (base + (i + j) * w))

/-- The first fault of a group: the lowest element, its first source, its second, then its result. -/
def State.chainFault (s : State) (k t : Nat) : List (Word × Option Word × Word) → Option TrapInfo
  | [] => none
  | (a, b, d) :: l =>
    match s.firstFault k t false (a :: b.toList) with
    | some e => some e
    | none => match s.firstFault k t true [d] with
      | some e => some e
      | none => s.chainFault k t l

/-- The checks of `VCHAIN` (R219): a claim, then the reserved bits of e0 and of e1; it uses no field of e1, and VL, which
it does not touch (R234), has no limit in it (log 115). -/
def State.chainCheck (s : State) : Nat :=
  let x := s.curSlot
  if x.claim.isNone then 1
  else if x.engReg 0 / 256 != 0 then 2
  else if e1Bad (x.engReg 1) .none then 3
  else 0

/-- `VCHAIN`. A descriptor that is not 64-byte aligned raises the alignment trap with its address: R234 asks for the alignment and
does not say whether a chain fault 8 takes its place (log entry 121). -/
def execVchain (a : Fin 32) (t : Bool) (s : State) : Out :=
  s.outsideHandler (.vchain a t) (fun s => s.gated [(a, t)] 0 false (fun s =>
    if s.chainCheck ≠ 0 then s.trap 0x12 (BitVec.ofNat 64 s.chainCheck)
    else if s.regNat a % 64 ≠ 0 then s.trap 0x08 (s.reg a)
    else s.withGot (s.readBlock s.cur (s.reg a) 16) (fun s c =>
      match chainBad c with
      | some n => s.trap 0x13 (BitVec.ofNat 64 n)
      | none => (s.modCur (fun x => x.hang (.vchain c))).push (.vchainGroupComplete s.cur))))

/-- The twin of a primary copy takes over its slot state (15_interrupts R378). -/
def State.mirror (s : State) (k : Nat) : State :=
  match s.twin k with
  | some k2 =>
    if (s.slotAt k).who.secondary then s
    else
      let x := s.slotAt k
      s.modSlot k2 (fun y => { x with owner := y.owner, bind := y.bind, claim := y.claim, lost := y.lost, idle := y.idle })
  | none => s

/-- A group whose elements have been read: the flags' trap, or the results written and the next group. -/
def State.chainWrite (s : State) (k c i : Nat) (dst : List Word) (rs : List (Nat × Nat)) : Got Unit :=
  let fl := allFlags rs
  if (s.slotAt k).enabledFlags fl ≠ 0 then
    .ok ((s.modSlot k (fun x => (x.raise fl).setPix i)).trapHeld k 0x0D (BitVec.ofNat 64 fl)) ()
  else
    (s.writeElems k (chainType c) (dst.zip (rs.map (·.1)))).bind (fun s _ =>
      let next := i + rs.length
      .ok (s.modSlot k (fun x => (x.raise fl).setPix next)) ())

/-- One group of 64 elements of a chained pass; a task that is being pre-empted stops between groups (R235, 15_interrupts
R369). -/
def State.chainGroup (s : State) (k c : Nat) : State :=
  let x := s.slotAt k
  let i := x.startAt
  let t := chainType c
  if chainNel c ≤ i then s.modSlot k (fun x => x.clearPix.finish)
  else if x.stopped then s.modSlot k (fun x => { x.setPix i with hold := none, reissue := false })
  else
    let n := min 64 (chainNel c - i)
    let src0 := chainAddrs (fieldAt c 64 64) (s.storedAt k t (fieldAt c 64 64)) i n
    let src1 := if chainReads1 c then
        (chainAddrs (fieldAt c 128 64) (s.storedAt k t (fieldAt c 128 64)) i n).map some
      else List.replicate n none
    let dst := chainAddrs (fieldAt c 192 64) (vbytes t) i n
    match s.chainFault k t (src0.zip (src1.zip dst)) with
    | some f => (s.modSlot k (fun x => x.setPix i)).trapHeld k f.cause f.val
    | none =>
      let cost := n * chainOps c * (if t = 1 then 3200 else 800)
      let got := (s.readElems k t src0).bind (fun s xs =>
        (s.readElems k t (src1.filterMap id)).bind (fun s ys =>
          let ys := if ys.isEmpty then List.replicate n 0 else ys
          let rm := (s.slotAt k).csr.fcsr.toNat % 8
          s.chainWrite k c i dst ((xs.zip ys).map (fun e => chainElem c rm e.1 e.2))))
      match got with
      | .ok s' _ => (s'.charge (s'.slotTask k).id cost).after (acNs 16) (.vchainGroupComplete k)
      | .wait => s.after (acNs 16) (.vchainGroupComplete k)
      | .block => s.modSlot k (fun x => { x.setPix i with hold := none, reissue := true, blocked := true })
      | .full c l => (s.tryWays c l).after (acNs 16) (.vchainGroupComplete k)
      | .trap f => (s.modSlot k (fun x => x.setPix i)).trapHeld k f.cause f.val
      | .bad (some f) h a e =>
        ((s.modSlot k (fun x => x.setPix i)).trapHeld k f.cause f.val).eccFound (s.slotTask k).id h a e
      | .bad none h a e => (s.eccFound (s.slotTask k).id h a e).after (acNs 16) (.vchainGroupComplete k)

def execVchainGroupComplete (slot : Nat) (s : State) : Out :=
  match (s.slotAt slot).hold with
  | some (.vchain c) =>
    if s.translationHeld (s.asidOf slot) then .next (s.after (acNs 16) (.vchainGroupComplete slot))
    else
    let s := s.chainGroup slot c
    let s := s.mirror slot
    .next (if (s.slotAt slot).stopped then s.saveLater (s.slotTask slot).id else s)
  | _ => .next s

end Machine
end Sys2Proof
end

