-- ==== Sys2Proof/Machine/Matrix.lean ====
section
/-!
DEFINITION. The matrix context and its queue (10_matrix R246 to R264; 11_grouped R291, R292): configuration, the commands
MLDA, MLDB, MM16, MZERO, MSTC and MCBT at issue and when they execute, and operand fetch.
-/
namespace Sys2Proof
namespace Machine

/-! ## Formats (Table 10-2) -/

/-- Bytes of an operand element, in memory and in the B-store. -/
def matBytes (f : Nat) : Nat := match f with | 0 => 4 | 1 => 2 | 2 => 2 | _ => 1
/-- Units of 256 bytes of a B tile. -/
def matUnits (f : Nat) : Nat := matBytes f

/-- An operand's bits as FP32 (R167, R249). -/
def matValue (f v : Nat) : Nat :=
  match f with
  | 0 => v
  | 1 => widenTo32 bf16 v
  | 2 => widenTo32 fp16 v
  | 3 => (fromTapered 8 fp32 0 v).1
  | _ => (fromTapered 6 fp32 0 (v % 64)).1

/-- Fields of e16. -/
def cfgAfmt (w : Word) : Nat := fieldAt w.toNat 3 3
def cfgBfmt (w : Word) : Nat := fieldAt w.toNat 6 3
def cfgCfmt (w : Word) : Nat := fieldAt w.toNat 58 2
def cfgCrm (w : Word) : Nat := fieldAt w.toNat 60 3
/-- Bytes of a stored element. -/
def cfgZ (w : Word) : Nat := if cfgCfmt w = 0 then 4 else 2

/-- A signed 32-bit stride. -/
def strideOf (v : Nat) : Word := sext64 (v % 2 ^ 32) 32

/-! ## The queue (R256, R257) -/

/-- The event that executes a command. -/
def State.matEvent (s : State) (core : Nat) (x : MatCmd) : Event :=
  match x.fn with
  | 1 => .mldbExecute core
  | 2 => .mldaExecute core
  | 3 => .mm16Execute core
  | 4 => .cfollowMtileStart core
  | 5 => .mzeroExecute core
  | 6 => .mstcExecute core
  | 8 => .mjoinComplete (s.taskAt x.who.task).job (x.ra.toNat % 65536)
  | _ => .mcbtExecute core

/-- The first command of the queue, whatever join entries stand before it, is to be executed. -/
def State.kickMatrix (s : State) (core : Nat) : State :=
  match (s.coreAt core).mat.queue.find? (fun x => x.join.isNone) with
  | some x => s.push (s.matEvent core x)
  | none => s

def State.modMat (s : State) (core : Nat) (f : MatCtx → MatCtx) : State := s.modCore core (fun c => { c with mat := f c.mat })

/-- Join entries at the head that no longer wait leave the queue (13_consistency R339). -/
def State.dropJoins (s : State) (core : Nat) : State :=
  s.modMat core (fun m => { m with queue := m.queue.dropWhile (fun x => x.join.any (fun j => !s.joinOpen j)) })

/-- A command completes: it leaves the queue, its token counts down, and the next one is due. -/
def State.matDone (s : State) (core : Nat) (x : MatCmd) : State :=
  let s := s.modMat core (fun m => { m with queue := m.queue.filter (fun y => y.id != x.id || y.join.isSome) })
  ((s.tokenDone x.who x.token).kickMatrix core).tryCommit x.who.task

/-- A free address for an outcome to whose record the manual gives none. -/
def State.freeAddr (s : State) (n : Nat) : Nat := (Config.freeWord s.freeCtr n).toNat % 2 ^ 48

/-- The queue is stopped; its join entries resolve at once (R257, 13_consistency R339). -/
def MatCtx.stop (m : MatCtx) : MatCtx := { m with halted := true, queue := m.queue.filter (fun x => x.join.isNone) }

/-- A command that faults: its outcome, and the queue is stopped. -/
def State.matFault (s : State) (core : Nat) (x : MatCmd) (code va : Nat) : State :=
  ((s.recordOutcome x.who x.token false code 0 va).modMat core MatCtx.stop).matDone core x

/-- A command of a stopped queue: SKIPPED. -/
def State.matSkip (s : State) (core : Nat) (x : MatCmd) : State :=
  (s.recordOutcome x.who x.token false 0x4D 0 (s.freeAddr x.id)).matDone core x

/-- The event of a command: it runs when the command stands at the head, past join entries. -/
def State.atMatHead (s : State) (core : Nat) (e : Event) (run : MatCmd → State → State) : State :=
  let s := s.dropJoins core
  match (s.coreAt core).mat.queue with
  | [] => s
  | x :: _ =>
    if x.join.isSome then s.after (acNs 16) e
    else if s.matEvent core x ≠ e then s.kickMatrix core
    else if (s.coreAt core).mat.halted then s.matSkip core x
    else if s.translationHeld (s.taskAt x.who.task).asid then s.after (acNs 16) e
    else run x s

/-- The command at the head keeps what it has read and is tried again. -/
def State.matStall (s : State) (core : Nat) (x : MatCmd) (got : List Nat) (e : Event) : State :=
  (s.modMat core (fun m => { m with
    queue := m.queue.map (fun y => if y.id = x.id ∧ y.join.isNone then { y with got := got } else y) })).after (acNs 16) e

/-! ## Issue (R253, R254) -/

/-- The issuing slot owns the context of its core. -/
def State.ownsMatrix (s : State) (k : Nat) : Bool :=
  (s.coreAt (coreOfSlot k)).mat.owner == some (s.slotAt k).who

/-- A precise matrix fault. -/
def State.matTrap (s : State) (code : Nat) : State := s.trap 0x14 (BitVec.ofNat 64 code)

/-- The context's configuration with DYN replaced by the owner's mode (R252). -/
def State.issueCfg (s : State) : Word :=
  let w := FMap.get 0 (s.coreAt (coreOfSlot s.cur)).mat.e 16
  if cfgCrm w = 7 then BitVec.ofNat 64 (w.toNat % 2 ^ 60 + s.roundMode 7 * 2 ^ 60) else w

/-- Enters a checked command into the queue: SKIPPED at once while the queue is stopped, and a lost turn without a free
entry or with a token that counts 255. -/
def State.enterMatrix (s : State) (k : Fin 8) (fn : Nat) (a b : Word) : State :=
  let core := coreOfSlot s.cur
  let m := (s.coreAt core).mat
  let who := s.curSlot.who
  if m.halted then (s.retire).recordOutcome who k.val false 0x4D 0 (s.freeAddr 0)
  else if 16 ≤ s.matUse core || s.curSlot.tokenFull k.val then s.bubble
  else
    let x : MatCmd := { id := s.fresh, fn := fn, who := who, token := k.val, ra := a, rb := b, cfg := s.issueCfg, regs := m.e }
    let first := m.queue.all (fun y => y.join.isSome)
    let s := s.bumpId.modMat core (fun m => { m with queue := m.queue ++ [x] })
    let s := s.modCur (fun y => (y.countUp k.val).retire)
    if first then s.push (s.matEvent core x) else s

/-- A MAT command past its issue conditions: ownership, then the code of its own checks (0 when they pass). -/
def State.matIssue (s : State) (check : Word → MatCtx → Nat) (act : State → State) : State :=
  if !s.ownsMatrix s.cur then s.matTrap 1
  else
    let m := (s.coreAt (coreOfSlot s.cur)).mat
    let code := check (FMap.get 0 m.e 16) m
    if code ≠ 0 then s.matTrap code else act s

/-- A tile of the B-store that lies outside the allocation or crosses a bank (R248). -/
def badBTile (die : Nat) (w : Word) (unit : Nat) : Bool :=
  let u := matUnits (cfgBfmt w)
  let a := cfgBBase w + unit
  cfgBN w < unit + u || a / Config.bBankUnits die != (a + u - 1) / Config.bBankUnits die

/-- The high half of a stride register must be zero. -/
def strideBad (m : MatCtx) (n : Nat) : Bool := (FMap.get 0 m.e n).toNat / 2 ^ 32 != 0

def execMlda (k : Fin 8) (w : Fin 256) (a b : Fin 32) (s : State) : Out :=
  s.gatedE [a, b] 0 w.val false (fun s =>
    let t := s.regNat b
    s.matIssue (fun _ m => if t / 2 ^ 36 != 0 || strideBad m 18 then 2 else 0)
      (fun s => s.enterMatrix k 2 (s.reg a) (s.reg b)))

def execMldb (k : Fin 8) (w : Fin 256) (a b : Fin 32) (s : State) : Out :=
  s.gatedE [a, b] 0 w.val false (fun s =>
    let t := s.regNat b
    s.matIssue (fun c m =>
      if t / 2 ^ 45 != 0 || strideBad m 20 then 2 else if badBTile (dieOfSlot s.cur) c (fieldAt t 32 13) then 3 else 0)
      (fun s => s.enterMatrix k 1 (s.reg a) (s.reg b)))

def execMm16 (k : Fin 8) (w : Fin 256) (a b : Fin 32) (s : State) : Out :=
  s.gatedE [a, b] 0 w.val false (fun s =>
    let t := s.regNat b
    s.matIssue (fun c _ =>
      if s.regNat a / 2 ^ 48 != 0 || t / 2 ^ 28 != 0 then 2
      else if cfgAccN c ≤ fieldAt t 17 11 || badBTile (dieOfSlot s.cur) c (fieldAt t 4 13) then 3 else 0)
      (fun s => s.enterMatrix k 3 (s.reg a) (s.reg b)))

def execMzero (k : Fin 8) (w : Fin 256) (a b : Fin 32) (s : State) : Out :=
  s.gatedE [a, b] 0 w.val false (fun s =>
    s.matIssue (fun c _ => if s.regNat b = 0 || cfgAccN c < s.regNat a + s.regNat b then 3 else 0)
      (fun s => s.enterMatrix k 5 (s.reg a) (s.reg b)))

def execMstc (k : Fin 8) (w : Fin 256) (a b : Fin 32) (s : State) : Out :=
  s.gatedE [a, b] 0 w.val false (fun s =>
    s.matIssue (fun c m =>
      if s.regNat a / 2 ^ 43 != 0 || strideBad m 22 then 2 else if cfgAccN c ≤ fieldAt (s.regNat a) 32 11 then 3 else 0)
      (fun s => s.enterMatrix k 6 (s.reg a) (s.reg b)))

/-- `MCBT` makes check 1 and enters the queue (11_grouped R292). -/
def execMcbt (k : Fin 8) (w : Fin 256) (a b : Fin 32) (s : State) : Out :=
  s.gatedE [a, b] 0 w.val false (fun s => s.matIssue (fun _ _ => 0) (fun s => s.enterMatrix k 34 (s.reg a) (s.reg b)))

/-! ## MCFG (R251, R255) -/

/-- Two stretches overlap. -/
def overlaps (a n b m : Nat) : Bool := a < b + m && b < a + n

/-- Check 5: a live context of another task of the cluster holds part of the allocation. -/
def State.allocTaken (s : State) (core task : Nat) (w : Word) : Bool :=
  (coresOfCluster (clusterOfCore core)).any (fun c =>
    let m := (s.coreAt c).mat
    let e := FMap.get 0 m.e 16
    m.owner.any (fun b => b.task != task) &&
      (overlaps (cfgAccBase w) (cfgAccN w) (cfgAccBase e) (cfgAccN e) ||
        overlaps (cfgBBase w) (cfgBN w) (cfgBBase e) (cfgBN e)))

def State.mcfgCode (s : State) (v : Word) : Nat :=
  let die := dieOfSlot s.cur
  let core := coreOfSlot s.cur
  if v.toNat % 8 != 0 || 5 ≤ cfgAfmt v || 5 ≤ cfgBfmt v || cfgCfmt v == 3 || cfgCrm v == 6 then 2
  else if Config.accTiles die < cfgAccBase v + cfgAccN v || Config.bUnits die < cfgBBase v + cfgBN v ||
      cfgAccN v == 0 || cfgBN v == 0 then 4
  else if s.allocTaken core s.curSlot.who.task v then 5 else 0

/-- The context taken: a context last owned by another partition has its tiles and units zeroed (17_retire R415). -/
def State.takeMatrix (s : State) (v : Word) : State :=
  let core := coreOfSlot s.cur
  let m := (s.coreAt core).mat
  let part := (s.slotTask s.cur).part
  let q := clusterOfCore core
  let stored := BitVec.ofNat 64 (v.toNat % 2 ^ 63)
  let s := if m.owner.isNone && m.lastPart.any (fun p => p != part) then
      (s.wipeRange (accBase q + 1024 * cfgAccBase v) (1024 * cfgAccN v)).wipeRange (bstBase q + 256 * cfgBBase v) (256 * cfgBN v)
    else s
  s.modMat core (fun m => { m with
    e := FMap.set 16 stored (if m.owner.isNone then [] else m.e), owner := some s.curSlot.who, halted := false,
    lastPart := some part })

/-- `MCFG`. A RELEASE leaves the core in the formed group that its context was in, also for a later owner: R272 names no
release among a group's ends (log entry 122). -/
def execMcfg (w : Fin 256) (a : Fin 32) (s : State) : Out :=
  s.gatedE [a] 0 w.val false (fun s =>
    let core := coreOfSlot s.cur
    let m := (s.coreAt core).mat
    let v := s.reg a
    let mine := s.ownsMatrix s.cur
    if v.getLsbD 63 then
      if !mine then s.matTrap 1
      else if s.matUse core ≠ 0 then s.bubble
      else (s.modCore core (fun c => { c with tags := [], mat := c.mat.free })).retire
    else if m.owner.isSome && !mine then s.matTrap 1
    else
      let code := s.mcfgCode v
      if code ≠ 0 then s.matTrap code
      else if s.matUse core ≠ 0 then s.bubble
      else (s.takeMatrix v).retire)

/-! ## Operand fetch (R259, R260, 11_grouped R291) -/

/-- What an operand's access meets: an engine code or a negative reply, the element's address, its SPA and group, and
whether the address was misaligned. -/
structure OpErr where
  code : Nat
  va : Word
  mis : Bool := false
  spa : Nat := 0
  group : Nat := 0
deriving DecidableEq, Repr

/-- The range entry number and range that hold `n` bytes. -/
def State.entryAt (s : State) (die asid v n : Nat) : Option (Nat × Range) :=
  (s.dieAt die).ranges.findSome? (fun e =>
    if e.1 / 64 = asid && e.2.valid && e.2.base ≤ v / 65536 && (v + n - 1) / 65536 ≤ e.2.limit then some (e.1 % 64, e.2)
    else none)

/-- Operand formats of a range (Table 10-8). -/
def Range.feeds (e : Range) (f : Nat) : Bool :=
  e.efmt == 0 ||
  match f with
  | 0 => e.efmt == 1
  | 1 => e.efmt == 3 || (e.codebook && !e.tblfmt)
  | 2 => e.efmt == 2 || (e.codebook && e.tblfmt)
  | 3 => e.efmt == 4
  | _ => e.efmt == 5

/-- A home that a matrix engine reaches: LM of the issuing die or CLASS 00 memory. -/
def Home.inDie (h : Home) (die : Nat) : Bool := h.win == .dram || (h.win == .lm && !h.outside && h.die == die)

/-- The negative reply of a home to a read or write of `n` bytes, 0 for none. -/
def State.homeReply (s : State) (spa n : Nat) (read : Bool) : Nat :=
  let h := s.home spa
  if h.outside then s.outsideCode spa spa
  else if s.dieCode h.die ≠ 0 then s.dieCode h.die
  else if s.unrecoverable spa || (read && s.isBad h.key n) then 5 else 0

/-- An access of `n` bytes, not over 256, waits for the rebuild of a chunk (16_recovery R399). -/
def State.chunkDue (s : State) (spa n : Nat) : Option (Nat × Nat) := (s.lostChunk spa).orElse (fun _ => s.lostChunk (spa + n - 1))

/-- The SPAs of the raw bytes of an element of a decoded range, else that of the element. -/
def Range.sourceSpas (e : Range) (v : Nat) : List Nat :=
  if e.decoded then (e.rawBytes ((v - e.base * 65536) / e.elemBytes)).map (fun i => e.start + i) else [e.spa v]

/-- The checks of an operand element, before anything is read. -/
def State.opCheck (s : State) (die asid f : Nat) (va : Word) : Option OpErr :=
  let v := va.toNat
  if v % matBytes f ≠ 0 then some { code := 0x48, va := va, mis := true }
  else match s.entryAt die asid v (matBytes f) with
    | none => some { code := 0x48, va := va }
    | some (_, e) =>
      if !(e.sourceSpas v).all (fun a => (s.home a).inDie die) then some { code := 0x4C, va := va }
      else if !e.r then some { code := 0x49, va := va }
      else if !e.feeds f then some { code := 0x4B, va := va }
      else none

/-- What reading an operand gives: its bits, a wait for table entries or for the rebuild of a chunk, a stale table, or a
negative reply. -/
inductive OpGot where
  | ok (s : State) (v : Nat)
  | stall (s : State) (table : Bool)
  | stale
  | err (e : OpErr)

/-- Codes of a codebook table. -/
def Range.tableSize (e : Range) : Nat := 2 ^ e.codeBits

/-- The path leaves a block: the bank's entries become empty and its tag none. -/
def Core.leaveBlock (c : Core) (bank n : Nat) : Core :=
  { c with
    tblFull := c.tblFull.filter (fun t => !(16 * bank ≤ t && t < 16 * bank + n)), tags := FMap.drop bank c.tags }

/-- A codebook element through its bank (R291). `code` is the index read. -/
def State.opTable (s : State) (core : Nat) (x : Nat) (e : Range) (n code : Nat) : OpGot :=
  let c := s.coreAt core
  let blk := n / e.blockLen
  let bank := blk % 4
  let tag := FMap.find c.tags bank
  if tag.any (fun t => t != (x, blk)) && !e.keep then .stale
  else
    let s := s.modCore core (fun c => { c with tags := FMap.set bank (x, blk) c.tags })
    if !((List.range e.tableSize).all (fun i => c.tblFull.contains (16 * bank + i))) then .stall s true
    else
      let last := n % e.blockLen == e.blockLen - 1 || n + 1 == (e.limit - e.base + 1) * 32768
      let v := c.tblAt (16 * bank + code)
      .ok (if !e.keep && last then s.modCore core (fun c => c.leaveBlock bank e.tableSize) else s) v

/-- A checked operand element read at its home. -/
def State.opRead (s : State) (core asid f task : Nat) (va : Word) : OpGot :=
  let v := va.toNat
  match s.entryAt (dieOfCore core) asid v (matBytes f) with
  | none => .err { code := 0x48, va := va }
  | some (x, e) =>
    let p := e.start
    let n := (v - e.base * 65536) / e.elemBytes
    let raw := e.sourceSpas v
    let len := if e.decoded then 1 else matBytes f
    match raw.findSome? s.lostChunk with
    | some d => .stall (s.awaitChunk d) false
    | none => match raw.find? (fun a => s.homeReply a len true != 0) with
      | some a => .err { code := s.homeReply a len true, va := va, spa := a, group := e.ecg }
      | none =>
        let s := s.chargeBytes task (s.home (raw.headD 0)) (matBytes f)
        if e.decoded then
          let code := e.codeOf (fun i => (s.homeBytes (p + i) 1).headD 0) n
          if e.codebook then s.opTable core x e n code else .ok s code
        else
          let w := leNat (s.homeBytes (e.spa v) (matBytes f))
          .ok s (if f = 4 then w % 64 else w)

/-- Elements named by two masks with their addresses: rows x, columns y. -/
def maskedElems (base stride : Word) (d xm ym : Nat) : List (Nat × Nat × Word) :=
  ((List.range 16).filter (bitAt xm)).flatMap (fun x =>
    ((List.range 16).filter (bitAt ym)).map (fun y =>
      (x, y, base + BitVec.ofNat 64 x * stride + BitVec.ofNat 64 (y * d))))

/-- How the loads of a tile end. -/
inductive LoadEnd where
  | done (s : State) (vals : List Nat)
  | stall (s : State) (got : List Nat) (table : Bool)
  | stale
  | err (e : OpErr)

/-- Reads elements one after the other, those already read standing in `got`. -/
def State.readTile (s : State) (core asid f task : Nat) : List Word → List Nat → LoadEnd
  | [], got => .done s got
  | v :: vs, got =>
    match s.opRead core asid f task v with
    | .ok s x => s.readTile core asid f task vs (got ++ [x])
    | .stall s table => .stall s got table
    | .stale => .stale
    | .err e => .err e

/-- The loads of a tile: every element is checked first. -/
def State.loadTile (s : State) (core asid f task : Nat) (es : List (Nat × Nat × Word)) (got : List Nat) : LoadEnd :=
  match es.findSome? (fun e => s.opCheck (dieOfCore core) asid f e.2.2) with
  | some e => .err e
  | none => s.readTile core asid f task ((es.drop got.length).map (·.2.2)) got

/-- Writes an A stage tile: loaded places, and +0 in every other. -/
def State.putA (s : State) (core f tile : Nat) (es : List (Nat × Nat × Word)) (vals : List Nat) : State :=
  s.modMat core (fun m =>
    let clear := m.stage.filter (fun e => e.1 / 256 != tile)
    { m with stage := (es.zip vals).foldl (fun st e =>
        FMap.set (256 * tile + 16 * e.1.1 + e.1.2.1) (BitVec.ofNat 32 (matValue f e.2)) st) clear })

/-- Writes a B tile at an absolute unit. -/
def State.putB (s : State) (q f unit : Nat) (es : List (Nat × Nat × Word)) (vals : List Nat) : State :=
  let z := matBytes f
  let base := bstBase q + 256 * unit
  let at' := (es.zip vals).map (fun e => (16 * e.1.1 + e.1.2.1, e.2))
  s.store base ((List.range 256).flatMap (fun i => leBytes z (FMap.get 0 at' i)))

/-- The code that an operand error records, after what an uncorrectable word leads to. -/
def State.opReport (s : State) (task : Nat) (e : OpErr) : State :=
  if e.code = 5 && !(s.home e.spa).outside then s.eccFound task (s.home e.spa) e.spa e.group else s

/-- Executes a load command: the elements, and what writes the tile. -/
def State.loadCommand (s : State) (core f : Nat) (e : Event) (es : List (Nat × Nat × Word)) (x : MatCmd)
    (put : State → List Nat → State) : State :=
  let asid := (s.taskAt x.who.task).asid
  match s.loadTile core asid f x.who.task es x.got with
  | .done s vals => (put s vals).matDone core x
  | .stall s got _ => s.matStall core x got e
  | .stale => s.matFault core x 0x4E (s.freeAddr x.id)
  | .err er => (s.matFault core x er.code er.va.toNat).opReport x.who.task er

def execMldaExecute (core : Nat) (s : State) : Out :=
  .next (s.atMatHead core (.mldaExecute core) (fun x s =>
    let f := cfgAfmt x.cfg
    let t := x.rb.toNat
    let es := maskedElems x.ra (strideOf (FMap.get 0 x.regs 18).toNat) (matBytes f) (t % 65536) (fieldAt t 16 16)
    s.loadCommand core f (.mldaExecute core) es x (fun s vals => s.putA core f (fieldAt t 32 4) es vals)))

def execMldbExecute (core : Nat) (s : State) : Out :=
  .next (s.atMatHead core (.mldbExecute core) (fun x s =>
    let f := cfgBfmt x.cfg
    let t := x.rb.toNat
    let es := maskedElems x.ra (strideOf (FMap.get 0 x.regs 20).toNat) (matBytes f) (t % 65536) (fieldAt t 16 16)
    s.loadCommand core f (.mldbExecute core) es x (fun s vals =>
      s.putB (clusterOfCore core) f (cfgBBase x.cfg + fieldAt t 32 13) es vals)))

/-! ## The step (R261, 07_numbers R184) -/

/-- A product: an exact number, or the bits of a NaN or an infinity. -/
inductive Leaf where
  | exact (x : Exact)
  | bits (n : Nat)
deriving DecidableEq, Repr

/-- The exact product of two FP32 values, with the flags of R172. -/
def leafOf (a b : Nat) : Leaf × Nat :=
  match fp32.nanOf [a, b] with
  | some r => (.bits r.1, r.2)
  | none =>
    if fp32.isInf a || fp32.isInf b then
      if fp32.isZero a || fp32.isZero b then (.bits fp32.nan, 16)
      else (.bits (fp32.withSign (fp32.sign a != fp32.sign b) fp32.inf), 0)
    else (.exact ((fp32.finite a).mul (fp32.finite b)), 0)

/-- A finite leaf beside a NaN or an infinity does not matter. -/
def Leaf.special (x : Leaf) : Nat :=
  match x with
  | .exact _ => 0
  | .bits n => n

/-- A node over two products: the sum rounded once to FP32. -/
def leafAdd (x y : Leaf) : Nat × Nat :=
  match x, y with
  | .exact a, .exact b => fp32.round 0 (a.add 0 b)
  | _, _ => fp32.addBits 0 x.special y.special

/-- Neighbouring products added. -/
def leafPairs : List Leaf → List (Nat × Nat)
  | a :: b :: l => leafAdd a b :: leafPairs l
  | _ => []

/-- One result element: c + treeSum of the sixteen products, masked ones as -0. -/
def mm16Elem (c : Nat) (ab : List (Option (Nat × Nat))) : Nat × Nat :=
  let ps := ab.map (fun p =>
    match p with
    | some e => leafOf e.1 e.2
    | none => (.exact ⟨true, 0, 0, false⟩, 0))
  let l1 := leafPairs (ps.map (·.1))
  let t := treeFold (fp32.addBits 0) 3 (l1.map (·.1))
  let r := fp32.addBits 0 c t.1
  (r.1, r.2 ||| t.2 ||| allFlags l1 ||| ps.foldl (fun n p => n ||| p.2) 0)

/-- Energy of one multiply-accumulate by format (17_retire Table 17-3). -/
def macCost (f : Nat) : Nat := match f with | 0 => 400 | 1 => 100 | 2 => 100 | 3 => 25 | _ => 15

def maskCount (m : Nat) : Nat := ((List.range 16).filter (bitAt m)).length

/-- A step on accumulator tile `acc` (absolute) with B tile at unit `unit` (absolute) and A stage tile `at'`: the state and
the flags. Rows and columns that are masked off, and every element of a step without depths, stay as they are. -/
def State.mm16Step (s : State) (core : Nat) (cfg : Word) (acc unit at' rm cm dm : Nat) : State × Nat :=
  let q := clusterOfCore core
  let bf := cfgBfmt cfg
  let z := matBytes bf
  let stage := (s.coreAt core).mat.stage
  let aAt := fun i k => (FMap.get 0 stage (256 * at' + 16 * i + k)).toNat
  let bAt := fun k j => matValue bf (s.loadNat (bstBase q + 256 * unit + (16 * k + j) * z) z)
  let cells := if dm % 65536 = 0 then [] else
    ((List.range 16).filter (bitAt rm)).flatMap (fun i => ((List.range 16).filter (bitAt cm)).map (fun j => (i, j)))
  let out := cells.map (fun c =>
    let a := accBase q + 1024 * acc + 64 * c.1 + 4 * c.2
    (a, mm16Elem (s.loadNat a 4) ((List.range 16).map (fun k =>
      if bitAt dm k then some (aAt c.1 k, bAt k c.2) else none))))
  (out.foldl (fun s o => s.storeNat o.1 4 o.2.1) s, allFlags (out.map (·.2)))

def execMm16Execute (core : Nat) (s : State) : Out :=
  .next (s.atMatHead core (.mm16Execute core) (fun x s =>
    let m := x.ra.toNat
    let t := x.rb.toNat
    let r := s.mm16Step core x.cfg (cfgAccBase x.cfg + fieldAt t 17 11) (cfgBBase x.cfg + fieldAt t 4 13) (t % 16)
      (m % 65536) (fieldAt m 16 16) (fieldAt m 32 16)
    let macs := maskCount (m % 65536) * maskCount (fieldAt m 16 16) * maskCount (fieldAt m 32 16)
    let s := r.1.charge x.who.task (macs * max (macCost (cfgAfmt x.cfg)) (macCost (cfgBfmt x.cfg)))
    (s.deliverAll x.who (fun y => y.raise r.2)).matDone core x))

/-! ## Zeroing and storing (R262, R263) -/

def State.zeroTiles (s : State) (q acc n : Nat) : State := s.wipeRange (accBase q + 1024 * acc) (1024 * n)

def execMzeroExecute (core : Nat) (s : State) : Out :=
  .next (s.atMatHead core (.mzeroExecute core) (fun x s =>
    (s.zeroTiles (clusterOfCore core) (cfgAccBase x.cfg + x.ra.toNat) x.rb.toNat).matDone core x))

/-- The check of a stored element. -/
def State.stCheck (s : State) (die asid z : Nat) (va : Word) : Option OpErr :=
  let v := va.toNat
  if v % z ≠ 0 then some { code := 0x48, va := va, mis := true }
  else match s.translate die asid v z with
    | none => some { code := 0x48, va := va }
    | some (e, a) =>
      if !(s.home a).inDie die then some { code := 0x4C, va := va }
      else if !e.w then some { code := 0x49, va := va }
      else if e.ecg ≠ 0 then some { code := 0x4A, va := va }
      else if s.homeReply a z false ≠ 0 then some { code := s.homeReply a z false, va := va, spa := a }
      else none

/-- A checked element written at its home. -/
def State.stWrite (s : State) (die asid task : Nat) (va : Word) (bs : List Byte) : State :=
  match s.translate die asid va.toNat bs.length with
  | some (_, a) =>
    let h := s.home a
    if h.outside then s else (s.chargeBytes task h bs.length).deliverBytes h bs
  | none => s

/-- A rebuild that the store of a tile waits for. -/
def State.storeDue (s : State) (core asid z : Nat) (base stride : Word) (rm cm : Nat) : Option (Nat × Nat) :=
  (maskedElems base stride z rm cm).findSome? (fun e =>
    (s.translate (dieOfCore core) asid e.2.2.toNat z).bind (fun t => s.lostChunk t.2))

/-- Stores part of accumulator tile `acc` (absolute) at an address: an error, or the state and flags. -/
def State.storeTile (s : State) (core asid task : Nat) (cfg : Word) (acc : Nat) (base stride : Word) (rm cm : Nat) :
    Except OpErr (State × Nat) :=
  let z := cfgZ cfg
  let es := maskedElems base stride z rm cm
  match es.findSome? (fun e => s.stCheck (dieOfCore core) asid z e.2.2) with
  | some e => .error e
  | none =>
    let q := clusterOfCore core
    let vals := es.map (fun e =>
      let c := s.loadNat (accBase q + 1024 * acc + 64 * e.1 + 4 * e.2.1) 4
      let r := match cfgCfmt cfg with
        | 0 => (c, 0)
        | 1 => convertFloat fp32 bf16 (cfgCrm cfg) c
        | _ => convertFloat fp32 fp16 (cfgCrm cfg) c
      (e.2.2, r))
    .ok (vals.foldl (fun s v => s.stWrite (dieOfCore core) asid task v.1 (leBytes z v.2.1)) s, allFlags (vals.map (·.2)))

def execMstcExecute (core : Nat) (s : State) : Out :=
  .next (s.atMatHead core (.mstcExecute core) (fun x s =>
    let m := x.ra.toNat
    let asid := (s.taskAt x.who.task).asid
    let stride := strideOf (FMap.get 0 x.regs 22).toNat
    match s.storeDue core asid (cfgZ x.cfg) x.rb stride (m % 65536) (fieldAt m 16 16) with
    | some d => (s.awaitChunk d).after (acNs 16) (.mstcExecute core)
    | none =>
    match s.storeTile core asid x.who.task x.cfg (cfgAccBase x.cfg + fieldAt m 32 11) x.rb stride (m % 65536)
      (fieldAt m 16 16) with
    | .error e => s.matFault core x e.code e.va.toNat
    | .ok r => (r.1.deliverAll x.who (fun y => y.raise r.2)).matDone core x))

/-! ## Table loads (11_grouped R292) -/

def execMcbtExecute (core : Nat) (s : State) : Out :=
  .next (s.atMatHead core (.mcbtExecute core) (fun x s =>
    let die := dieOfCore core
    let asid := (s.taskAt x.who.task).asid
    match s.entryAt die asid x.rb.toNat 1 with
    | none => s.matFault core x 0x48 x.rb.toNat
    | some (n, e) =>
      if !e.codebook then s.matFault core x 0x4B x.rb.toNat
      else if x.ra.toNat % 2 ≠ 0 then s.matFault core x 0x48 x.ra.toNat
      else
        let blk := (x.rb.toNat - e.base * 65536) / 2 / e.blockLen
        match s.translate die asid x.ra.toNat (2 * e.tableSize) with
        | none => s.matFault core x 0x48 x.ra.toNat
        | some (r, a) =>
          if !r.r then s.matFault core x 0x49 x.ra.toNat
          else if !(s.home a).inDie die then s.matFault core x 0x4C x.ra.toNat
          else match s.chunkDue a (2 * e.tableSize) with
          | some d => (s.awaitChunk d).after (acNs 16) (.mcbtExecute core)
          | none =>
          if s.homeReply a (2 * e.tableSize) true ≠ 0 then
            (s.matFault core x (s.homeReply a (2 * e.tableSize) true) x.ra.toNat).opReport x.who.task
              { code := s.homeReply a (2 * e.tableSize) true, va := x.ra, spa := a, group := r.ecg }
          else
            let s := s.chargeBytes x.who.task (s.home a) (2 * e.tableSize)
            (s.modCore core (fun c =>
              let c := c.writeTbl (32 * (blk % 4)) (s.homeBytes a (2 * e.tableSize))
              { c with tags := FMap.set (blk % 4) (n, blk) c.tags })).matDone core x))

end Machine
end Sys2Proof
end

