-- ==== Sys2Proof/Machine/Tile.lean ====
section
/-!
DEFINITION. Tile products (10_matrix R265 to R276, 12_copy R325): `MTILE` and its sequencer, attached tiles, and matrix
groups.
-/
namespace Sys2Proof
namespace Machine

/-! ## Geometry (R265 to R267, R273) -/

def TileRun.reg (r : TileRun) (n : Nat) : Nat := (FMap.get 0 r.regs n).toNat
def TileRun.rows (r : TileRun) : Nat := r.reg 23 % 1024 + 1
def TileRun.cols (r : TileRun) : Nat := fieldAt (r.reg 23) 16 10 + 1
def TileRun.depth (r : TileRun) : Nat := fieldAt (r.reg 23) 32 16 + 1
def TileRun.ti (r : TileRun) : Nat := (r.rows + 15) / 16
def TileRun.tj (r : TileRun) : Nat := (r.cols + 15) / 16
def TileRun.kb (r : TileRun) : Nat := (r.depth + 15) / 16
def TileRun.grouped (r : TileRun) : Bool := bitAt r.mode 13
def TileRun.stores (r : TileRun) : Bool := bitAt r.mode 12
def TileRun.accum (r : TileRun) : Bool := bitAt r.mode 11
def TileRun.origin (r : TileRun) : Nat := r.mode % 2048

/-- The formed group to which a core's context belongs. -/
def State.groupOf? (s : State) (core : Nat) : Option Group :=
  s.groups.find? (fun g => g.formed && g.members.contains core)

def Group.index (g : Group) (core : Nat) : Nat := g.members.findIdx (· == core)

/-- First row of a member's band, and the first after it. -/
def bandOf (g : Option Group) (core ti : Nat) : Nat × Nat :=
  match g with
  | some g => (g.index core * ti / g.members.length, (g.index core + 1) * ti / g.members.length)
  | none => (0, ti)

/-- Ones in the low bits of a mask at an edge. -/
def edgeMask (n at' : Nat) : Nat := 2 ^ min 16 (n - 16 * at') - 1

/-- The group of a run in group mode. -/
def State.runGroup (s : State) (core : Nat) (r : TileRun) : Option Group := if r.grouped then s.groupOf? core else none

/-- Rows of the context's band, and compute steps. -/
def State.bandRows (s : State) (core : Nat) (r : TileRun) : Nat :=
  let b := bandOf (s.runGroup core r) core r.ti
  b.2 - b.1

/-! ## Issue (R254, R266, R268) -/

/-- The first failing check of Table 10-5 that `MTILE` makes beyond ownership. With GROUP set and the context in no group the
ACCN check counts the whole TI, so that a product too large for one context has code 6 and not 7: R266 does not say which TI
counts there (log entry 122). -/
def State.mtileCode (s : State) (core : Nat) (r : TileRun) (halted : Bool) : Nat :=
  let die := dieOfCore core
  let u := matUnits (cfgBfmt r.cfg)
  let bank := Config.bBankUnits die
  let reserved := r.mode / 2 ^ 14 != 0 || [17, 19, 21].any (fun n => r.reg n / 2 ^ 48 != 0) ||
    [18, 20, 22].any (fun n => r.reg n / 2 ^ 32 != 0) || r.reg 23 / 2 ^ 48 != 0 || fieldAt (r.reg 23) 26 6 != 0 ||
    fieldAt (r.reg 23) 10 6 != 0
  let stride := r.reg 18 % matBytes (cfgAfmt r.cfg) != 0 || r.reg 20 % matBytes (cfgBfmt r.cfg) != 0 ||
    (r.stores && r.reg 22 % cfgZ r.cfg != 0)
  let cross := (List.range (2 * r.tj)).any (fun i =>
    let a := cfgBBase r.cfg + i * u
    a / bank != (a + u - 1) / bank)
  if reserved then 2
  else if stride || cfgBN r.cfg < 2 * r.tj * u || cross || cfgAccN r.cfg < r.origin + s.bandRows core r * r.tj then 6
  else if r.grouped && (s.groupOf? core).isNone then 7
  else if halted then 9 else 0

/-- The run that an `MTILE` or `CFOLLOW` of the current slot describes. -/
def State.runOf (s : State) (k : Fin 8) (mode : Word) : TileRun :=
  let m := (s.coreAt (coreOfSlot s.cur)).mat
  { who := s.curSlot.who, slot := some s.cur, token := k.val, mode := mode.toNat, cfg := s.issueCfg, regs := m.e }

def State.setRun (s : State) (core : Nat) (r : Option TileRun) : State := s.modMat core (fun m => { m with run := r })

def State.modGroup (s : State) (core : Nat) (f : Group → Group) : State :=
  { s with groups := s.groups.map (fun g => if g.formed && g.members.contains core then f g else g) }

/-- A member has abandoned its tile: after its trap its slot issued at another address, or ended. -/
def State.abandoned (s : State) (g : Group) : Option Nat :=
  (g.midway.find? (fun e =>
    match (s.coreAt e.1).mat.owner with
    | some b => (s.copiesOf b).any (fun k => (s.slotAt k).pixAt != some e.2 || (s.slotAt k).ended)
    | none => true)).map (·.1)

/-- The other members under way are to end with fault 8. -/
def State.noteAbandoned (s : State) (core : Nat) (g : Group) : State :=
  match s.abandoned g with
  | none => s
  | some c => s.modGroup core (fun g => { g with
      abort := (g.go.filter (· != c)).foldl (fun m x => FMap.set x 8 m) g.abort, go := [], midway := FMap.drop c g.midway })

/-- The run of an `MTILE` that issues: one that resumes at pix goes on with what its step had read. -/
def TileRun.resume (r : TileRun) (x : Slot) (m : MatCtx) : TileRun :=
  match m.paused with
  | some p =>
    if x.pixAt = some x.pc ∧ p.who = r.who ∧ p.step = r.step ∧ p.mode = r.mode ∧ p.cfg = r.cfg ∧ p.regs = r.regs then
      { r with part := p.part, got := p.got, vals := p.vals }
    else r
  | none => r

def execMtile (k : Fin 8) (w : Fin 256) (a : Fin 32) (s : State) : Out :=
  s.outsideHandler (.mtile k w a) (fun s => s.gatedE [a] 0 w.val false (fun s =>
    let core := coreOfSlot s.cur
    let r := s.runOf k (s.reg a)
    s.matIssue (fun _ m => s.mtileCode core r m.halted) (fun s =>
      let s := s.dropJoins core
      if s.matUse core ≠ 0 || s.curSlot.tokenFull k.val then s.bubble
      else
        let id := s.fresh
        let s := s.bumpId.setRun core
          (some (TileRun.resume { r with step := s.curSlot.startAt, cmd := id } s.curSlot (s.coreAt core).mat))
        let s := s.modMat core (fun m => { m with paused := none })
        let s := match s.runGroup core r with
          | some g => (s.noteAbandoned core g).modGroup core (fun g => { g with midway := FMap.drop core g.midway })
          | none => s
        (s.modCur (fun x => (x.countUp k.val).hang .mtile)).push (.mtileSequencerStep core))))

/-! ## How a run ends -/

/-- The attached command of a run leaves the queue. -/
def State.endFollow (s : State) (core : Nat) (r : TileRun) : State :=
  match (s.coreAt core).mat.queue.find? (fun x => x.id == r.cmd && x.join.isNone) with
  | some x => s.matDone core x
  | none => s

/-- Flags go to the owner's fcsr and the run leaves the sequencer. -/
def State.leaveRun (s : State) (core : Nat) (r : TileRun) : State :=
  (s.deliverAll r.who (fun x => x.raise r.flags)).setRun core none

/-- What the loads of the step have read stays with the context: tables that the path has left are not read twice (11_grouped
R291, R294). -/
def State.keepLoads (s : State) (core : Nat) (r : TileRun) : State := s.modMat core (fun m => { m with paused := some r })

/-- The cause and tval of a step's error (R269). -/
def OpErr.trapInfo (e : OpErr) : TrapInfo :=
  if e.code = 0x48 then ⟨if e.mis then 0x08 else 0x09, e.va⟩
  else if e.code = 0x49 then ⟨0x0A, e.va⟩
  else if e.code = 0x4A then ⟨0x0B, e.va⟩
  else if e.code = 0x4B ∨ e.code = 0x4C then ⟨0x14, e.va⟩
  else ⟨0x0E, replyVal e.code e.va⟩

/-- Step `r.step` meets an error: a precise trap at the `MTILE`, or the outcome of an attached tile, whose queue stops. -/
def State.tileFault (s : State) (core : Nat) (r : TileRun) (e : OpErr) : State :=
  let s := s.leaveRun core r
  let s := match r.slot with
    | some k =>
      let pc := (s.slotAt k).pc
      let s := if r.grouped then s.modGroup core (fun g => { g with midway := FMap.set core pc g.midway }) else s
      let s := ((s.keepLoads core r).tokenDone r.who r.token).modSlot k (fun x => x.setPix r.step)
      s.trapHeld k e.trapInfo.cause e.trapInfo.val
    | none =>
      ((s.recordOutcome r.who r.token false e.code 0 e.va.toNat).modMat core MatCtx.stop).endFollow
        core r
  s.opReport r.who.task e

/-- A stale table stops the queue and ends the tile (11_grouped R291). -/
def State.tileStale (s : State) (core : Nat) (r : TileRun) : State :=
  let s := (s.leaveRun core r).recordOutcome r.who r.token false 0x4E 0 (s.freeAddr r.cmd)
  let s := s.modMat core MatCtx.stop
  match r.slot with
  | some k => (s.tokenDone r.who r.token).modSlot k (fun x => x.clearPix.finish)
  | none => s.endFollow core r

/-- Matrix fault 7 or 8 ends the tile (R274, R276). An attached tile records a fault whose code the manual does not give. -/
def State.tileAbort (s : State) (core : Nat) (r : TileRun) (code : Nat) : State :=
  let s := (s.leaveRun core r).modGroup core (fun g =>
    { g with abort := FMap.drop core g.abort, go := g.go.filter (· != core) })
  match r.slot with
  | some k =>
    let s := (s.tokenDone r.who r.token).modSlot k Slot.clearPix
    s.trapHeld k 0x14 (BitVec.ofNat 64 code)
  | none =>
    let f := (Config.freeWord s.freeCtr r.cmd).toNat
    ((s.recordAs r.who r.token false .fault (f % 256) 0 (f / 256)).modMat core MatCtx.stop).endFollow
      core r

/-- The tile is complete. -/
def State.tileComplete (s : State) (core : Nat) (r : TileRun) : State :=
  let s := s.leaveRun core r
  let s := if r.grouped then s.modGroup core (fun g => { g with
      doneTiles := FMap.set core (FMap.get 0 g.doneTiles core + 1) g.doneTiles, go := g.go.filter (· != core) })
    else s
  match r.slot with
  | some k => (s.tokenDone r.who r.token).modSlot k (fun x => x.clearPix.finish)
  | none => s.endFollow core r

/-- The pre-emption of the slot takes effect: it issues the `MTILE` again at resume, from this step. -/
def State.tilePause (s : State) (core : Nat) (r : TileRun) : State :=
  match r.slot with
  | none => s
  | some k =>
    let s := ((s.leaveRun core r).keepLoads core r).tokenDone r.who r.token
    (s.modSlot k (fun x => { x.setPix r.step with hold := none, reissue := false })).saveLater r.who.task

def State.tileStopped (s : State) (r : TileRun) : Bool := r.slot.any (fun k => (s.slotAt k).stopped)

/-- The sequencer goes on with a changed run. -/
def State.tileGo (s : State) (core : Nat) (r : TileRun) : State := (s.setRun core (some r)).push (.mtileSequencerStep core)

/-- The sequencer looks again after 16 ac. -/
def State.tileLater (s : State) (core : Nat) (r : TileRun) : State :=
  (s.setRun core (some r)).after (acNs 16) (.mtileSequencerStep core)

/-! ## Groups while tiles run (R273 to R276) -/

/-- Waits for other members: the tile stops here for a pre-emption (log 37). -/
def State.tileWait (s : State) (core : Nat) (r : TileRun) : State :=
  if s.tileStopped r then s.tilePause core r else s.tileLater core { r with waits := true }

/-- Waits for a chunk that another member loads. The group watchdog counts these 16 ac, unless a member is in its trap
handler for a fault of its tile; a wait that a pre-emption cuts in two counts on at resume (R275). -/
def State.chunkWait (s : State) (core : Nat) (r : TileRun) (g : Group) : State :=
  let n := FMap.get 0 g.waited core + if g.midway.isEmpty then 16 else 0
  let fires := (if g.gwd = 0 then 16384 else g.gwd) * 1024 ≤ n
  let s := s.modGroup core (fun g => { g with waited := FMap.set core (if fires then 0 else n) g.waited })
  (if fires then s.push (.groupWatchdogFire g.job g.gid) else s).tileWait core r

/-- The formats, geometry and mode word of a run as one number; the rounding CRM is none of them. -/
def TileRun.digest (r : TileRun) : Nat :=
  (List.range 7).foldl (fun n i => n * 2 ^ 64 + r.reg (17 + i))
    (r.mode * 2 ^ 64 + cfgCfmt r.cfg * 2 ^ 6 + fieldAt r.cfg.toNat 3 6)

/-- The exchange of digests before step 0 (R274): with the last one the members go on or all end with fault 7. -/
def State.exchangeDigest (s : State) (core : Nat) (r : TileRun) (g : Group) : State :=
  let ds := FMap.set core r.digest g.digests
  if g.members.all (fun c => (FMap.find ds c).isSome) then
    let same := g.members.all (fun c => FMap.get 0 ds c == r.digest)
    let s := s.modGroup core (fun g =>
      if same then { g with digests := [], go := g.members, loaded := 0, fin := [], waited := [] }
      else { g with digests := [], abort := g.members.foldl (fun m c => FMap.set c 7 m) g.abort })
    s.tileGo core r
  else (s.modGroup core (fun g => { g with digests := ds })).tileWait core r

/-! ## Loads of a step (R265, R273) -/

/-- A load of a step: the B tile of column J, or the A tile. -/
structure TileLoad where
  isB : Bool
  j : Nat
  es : List (Nat × Nat × Word)
deriving DecidableEq, Repr

def TileRun.loadB (r : TileRun) (kb j : Nat) : TileLoad :=
  let d := matBytes (cfgBfmt r.cfg)
  let str := strideOf (r.reg 20)
  let base := BitVec.ofNat 64 (r.reg 19) + BitVec.ofNat 64 (16 * kb) * str + BitVec.ofNat 64 (16 * j * d)
  ⟨true, j, maskedElems base str d (edgeMask r.depth kb) (edgeMask r.cols j)⟩

def TileRun.loadA (r : TileRun) (kb i : Nat) : TileLoad :=
  let d := matBytes (cfgAfmt r.cfg)
  let str := strideOf (r.reg 18)
  let base := BitVec.ofNat 64 (r.reg 17) + BitVec.ofNat 64 (16 * i) * str + BitVec.ofNat 64 (16 * kb * d)
  ⟨false, 0, maskedElems base str d (edgeMask r.rows i) (edgeMask r.depth kb)⟩

/-- A loaded tile is written: an A tile into the stage, a B tile into the chunk slot of every member. -/
def State.putTile (s : State) (core : Nat) (r : TileRun) (kb i : Nat) (l : TileLoad) (vals : List Nat) : State :=
  if l.isB then
    let f := cfgBfmt r.cfg
    let cores := match s.runGroup core r with
      | some g => g.members
      | none => [core]
    cores.foldl (fun s c =>
      let w := FMap.get 0 (s.coreAt c).mat.e 16
      s.putB (clusterOfCore c) f (cfgBBase w + (kb % 2 * r.tj + l.j) * matUnits f) l.es vals) s
  else s.putA core (cfgAfmt r.cfg) (i % 16) l.es vals

/-- The loads of a step, all of them read. -/
def State.putTiles (s : State) (core : Nat) (r : TileRun) (kb i : Nat) (ls : List TileLoad) : State :=
  (ls.zip r.vals).foldl (fun s e => s.putTile core r kb i e.1 e.2) s

/-- Before step 0 the result tiles are set to +0 unless ACCUM is set. A stale table in the loads of step 0 comes before
it, so that it writes nothing (11_grouped R291); a trap there comes after it, since it leaves the sums of no step (R269). -/
def State.tileZero (s : State) (core : Nat) (r : TileRun) : State :=
  if r.step = 0 && !r.accum then
    s.zeroTiles (clusterOfCore core) (cfgAccBase r.cfg + r.origin) (s.bandRows core r * r.tj)
  else s

/-- Carries out the loads of a step, reading one tile at a time; `then'` follows the last. Nothing is written before
everything has been read, so that a stale table leaves nothing of the step (11_grouped R291). A late table lets the slot be
pre-empted here (R294); the wait for a rebuild does not (R268). -/
def State.tileLoads (s : State) (core : Nat) (r : TileRun) (kb i : Nat) (ls : List TileLoad) (then' : State → State) : State :=
  let asid := (s.taskAt r.who.task).asid
  let fmt := fun (l : TileLoad) => if l.isB then cfgBfmt r.cfg else cfgAfmt r.cfg
  let bad := if r.part = 0 && r.got.isEmpty then
      ls.findSome? (fun l => l.es.findSome? (fun e => s.opCheck (dieOfCore core) asid (fmt l) e.2.2))
    else none
  match bad with
  | some e => (s.tileZero core r).tileFault core r e
  | none =>
    match ls[r.part]? with
    | none => then' ((s.tileZero core r).putTiles core r kb i ls)
    | some l =>
      match s.loadTile core asid (fmt l) r.who.task l.es r.got with
      | .done s vals => s.tileGo core { r with part := r.part + 1, got := [], vals := r.vals ++ [vals] }
      | .stall s got table =>
        if table && s.tileStopped r then s.tilePause core { r with got := got } else s.tileLater core { r with got := got }
      | .stale => s.tileStale core r
      | .err e => (s.tileZero core r).tileFault core r e

/-- The chunk that a member may load now: every member has finished the steps of the chunk two before it. -/
def Group.mayLoad (g : Group) (kb : Nat) : Bool := g.members.all (fun c => kb ≤ FMap.get 0 g.fin c + 1)

/-- Step `r.step` computes: chunk kb, row I of the band, column J. -/
def State.computeStep (s : State) (core : Nat) (r : TileRun) : State :=
  let g := s.runGroup core r
  let band := bandOf g core r.ti
  let per := (band.2 - band.1) * r.tj
  let kb := r.step / per
  let i' := r.step / r.tj % (band.2 - band.1)
  let i := band.1 + i'
  let j := r.step % r.tj
  let opens := r.step % per = 0
  let s := if opens then s.modGroup core (fun g => { g with fin := FMap.set core kb g.fin }) else s
  let mine := match g with
    | some g => kb % g.members.length == g.index core
    | none => true
  match (if opens then g else none).filter (fun g => if mine then !g.mayLoad kb else g.loaded ≤ kb) with
  | some g => if mine then s.tileWait core r else s.chunkWait core r g
  | none =>
    let s := s.modGroup core (fun g => { g with waited := FMap.drop core g.waited })
    let r := { r with waits := false }
    let bs := if opens && mine then (List.range r.tj).map (r.loadB kb) else []
    let as' := if j = 0 then [r.loadA kb i] else []
    s.tileLoads core r kb i (bs ++ as') (fun s =>
      let s := if opens && mine then s.modGroup core (fun g => { g with loaded := kb + 1 }) else s
      let rm := edgeMask r.rows i
      let cm := edgeMask r.cols j
      let dm := edgeMask r.depth kb
      let z := s.mm16Step core r.cfg (cfgAccBase r.cfg + r.origin + i' * r.tj + j)
        (cfgBBase r.cfg + (kb % 2 * r.tj + j) * matUnits (cfgBfmt r.cfg)) (i % 16) rm cm dm
      let cost := maskCount rm * maskCount cm * maskCount dm * max (macCost (cfgAfmt r.cfg)) (macCost (cfgBfmt r.cfg))
      (z.1.charge r.who.task cost).tileGo core { r with
        step := r.step + 1, part := 0, got := [], vals := [], flags := r.flags ||| z.2 })

/-- A store step: result tile `q` of the band. -/
def State.storeStep (s : State) (core : Nat) (r : TileRun) (q : Nat) : State :=
  let band := bandOf (s.runGroup core r) core r.ti
  let i := band.1 + q / r.tj
  let j := q % r.tj
  let str := strideOf (r.reg 22)
  let base := BitVec.ofNat 64 (r.reg 21) + BitVec.ofNat 64 (16 * i) * str + BitVec.ofNat 64 (16 * j * cfgZ r.cfg)
  let asid := (s.taskAt r.who.task).asid
  match s.storeDue core asid (cfgZ r.cfg) base str (edgeMask r.rows i) (edgeMask r.cols j) with
  | some d => (s.awaitChunk d).tileLater core r
  | none =>
  match s.storeTile core asid r.who.task r.cfg (cfgAccBase r.cfg + r.origin + q) base str (edgeMask r.rows i)
    (edgeMask r.cols j) with
  | .error e => s.tileFault core r e
  | .ok z => z.1.tileGo core { r with step := r.step + 1, flags := r.flags ||| z.2 }

/-- A member without rows still loads and multicasts its chunks, and then is complete. -/
def State.emptyBand (s : State) (core : Nat) (r : TileRun) (g : Group) : State :=
  let s := s.modGroup core (fun g => { g with fin := FMap.set core r.kb g.fin })
  let kb := g.loaded
  let due := (List.range r.kb).any (fun n => kb ≤ n && n % g.members.length == g.index core)
  if !due then s.tileComplete core r
  else if kb % g.members.length ≠ g.index core || !g.mayLoad kb then s.tileWait core r
  else
    s.tileLoads core { r with waits := false } kb 0 ((List.range r.tj).map (r.loadB kb)) (fun s =>
      (s.modGroup core (fun g => { g with loaded := kb + 1 })).tileGo core { r with part := 0, got := [], vals := [] })

/-- One move of the sequencer (R265, R268). -/
def State.tileMove (s : State) (core : Nat) (r : TileRun) : State :=
  let s := match s.runGroup core r with
    | some g => s.noteAbandoned core g
    | none => s
  let g := s.runGroup core r
  let comp := r.kb * (s.bandRows core r * r.tj)
  let total := comp + if r.stores then s.bandRows core r * r.tj else 0
  let pause := r.part = 0 && r.got.isEmpty && ((r.step % 64 = 0 && 0 < r.step) || r.step = total)
  let code := match g with
    | some g => FMap.get 0 g.abort core
    | none => 0
  if code ≠ 0 && (pause || !r.ready || r.step = 0 || r.waits) then s.tileAbort core r code
  else if pause && r.ready && r.step < total && s.tileStopped r then s.tilePause core r
  else if !r.ready then
    match g with
    | some g =>
      if g.go.contains core then s.tileGo core { r with ready := true } else s.exchangeDigest core r g
    | none => s.tileGo core { r with ready := true }
  else if r.step < comp then s.computeStep core r
  else
    let s := s.modGroup core (fun g => { g with fin := FMap.set core r.kb g.fin })
    if r.step < total then s.storeStep core r (r.step - comp)
    else match g with
      | some g => if comp = 0 then s.emptyBand core r g else s.tileComplete core r
      | none => s.tileComplete core r

def execMtileSequencerStep (core : Nat) (s : State) : Out :=
  match (s.coreAt core).mat.run with
  | none => .next s
  | some r => .next (if s.translationHeld (s.taskAt r.who.task).asid then s.after (acNs 16) (.mtileSequencerStep core)
      else s.tileMove core r)

/-- An attached tile starts at the queue's head once its copy has completed (12_copy R325). -/
def execCfollowMtileStart (core : Nat) (s : State) : Out :=
  .next (if (s.coreAt core).mat.run.isSome then s
    else s.atMatHead core (.cfollowMtileStart core) (fun x s =>
      if x.follow.any (fun n => s.cmds.any (fun c => c.id == n)) && !x.copyDone then s.after (acNs 16) (.cfollowMtileStart core)
      else if x.skipped then s.matSkip core x
      else s.tileGo core { who := x.who, slot := none, token := x.token, mode := x.ra.toNat, cfg := x.cfg, regs := x.regs, cmd := x.id }))

/-! ## Forming and joining groups (R270 to R272) -/

/-- A descriptor's fields. -/
def gdMembers (d die : Nat) : List Nat :=
  (List.range (fieldAt d 32 2 + 1)).map (fun n =>
    die * 512 + fieldAt d (192 + 16 * n) 7 * 8 + fieldAt d (192 + 16 * n + 7) 3)

/-- The issuer is member M. -/
def gdMember (d die core : Nat) : Bool := (gdMembers d die)[d % 4]? == some core

/-- A reserved field is non-zero, or, by the model's choice, two members lie in one cluster, which R270 excludes and no
code of R271 names (log 40). -/
def gdBad (d : Nat) : Bool :=
  let clusters := (gdMembers d 0).map (· / 8)
  clusters.any (fun q => 1 < clusters.count q) ||
  fieldAt d 256 256 != 0 || fieldAt d 64 96 != 0 || fieldAt d 34 14 != 0 || fieldAt d 2 30 != 0 ||
    (List.range 4).any (fun n => fieldAt d (192 + 16 * n + 10) 6 != 0 ||
      (fieldAt d 32 2 < n && fieldAt d (192 + 16 * n) 16 != 0))

/-- The pending group of a job and GID on a die. -/
def Group.pendingAs (g : Group) (job gid die : Nat) : Bool :=
  !g.formed && g.job == job && g.gid == gid && dieOfCore (g.members.headD 0) == die

/-- The first code of R271 that fails for one member: 1, 4 and 5 are its own, 2 and 3 every member's. -/
def State.memberCode (s : State) (g : Group) (a : GroupAsk) : Nat :=
  let head := (g.asked.head?.map (fun a => a.desc / 4)).getD 0
  if gdBad a.desc || !gdMember a.desc (dieOfCore a.core) a.core then 1
  else if g.asked.any (fun a => a.desc / 4 != head) then 2
  else if g.asked.any (fun a => a.who.task != g.task || (s.coreAt a.core).mat.owner != some a.who) then 3
  else if s.groups.any (fun x => x.formed && x.job == g.job && x.gid == g.gid) then 4
  else if (s.groupOf? a.core).isSome then 5 else 0

/-- All members have asked: the group forms, or every member gets its first failing code; one whose own checks pass gets
the first of the others (log 40). -/
def State.formGroup (s : State) (g : Group) : State :=
  let codes := (g.asked.map (s.memberCode g)).filter (· ≠ 0)
  let any := codes.foldl min (codes.headD 0)
  let value := fun (a : GroupAsk) =>
    let own := s.memberCode g a
    if any ≠ 0 then 2 ^ 63 + (if own ≠ 0 then own else any) else g.gid + a.desc % 4 * 2 ^ 16 + fieldAt a.desc 32 2 * 2 ^ 18
  let values := g.asked.map (fun a => (a, value a))
  let rest := s.groups.filter (fun x => !x.pendingAs g.job g.gid (dieOfCore (g.members.headD 0)))
  let s := { s with groups := if any = 0 then rest ++ [{ g with formed := true, asked := [] }] else rest }
  values.foldl (fun s a => s.produce a.1.who a.1.reg (BitVec.ofNat 64 a.2)) s

def execMprog (w : Fin 256) (a b : Fin 32) (s : State) : Out :=
  s.gatedE [a] b w.val false (fun s =>
    if !s.ownsMatrix s.cur then s.matTrap 1
    else if s.regNat a % 64 ≠ 0 then s.trap 0x08 (s.reg a)
    else s.withGot (s.readBlock s.cur (s.reg a) 8) (fun s d =>
      let core := coreOfSlot s.cur
      let die := dieOfCore core
      let task := s.slotTask s.cur
      let gid := fieldAt d 48 16
      if !(gdMembers d die).contains core then (s.setReg b (BitVec.ofNat 64 (2 ^ 63 + 1))).retire
      else
        let ask : GroupAsk := { core := core, who := s.curSlot.who, reg := b, desc := d }
        let old := s.groups.find? (fun g => g.pendingAs task.job gid die)
        let g : Group := old.getD { gid := gid, job := task.job, task := task.id, members := gdMembers d die, gwd := fieldAt d 160 32 }
        let g : Group := { g with asked := g.asked.filter (fun x => x.core != core) ++ [ask] }
        let s := s.modCur (fun x => (x.setSt b .pending).retire)
        let rest := s.groups.filter (fun x => !x.pendingAs task.job gid die)
        let s := { s with groups := rest ++ [g] }
        if g.asked.length < g.members.length then s else s.formGroup g))

def execMjoin (k : Fin 8) (w : Fin 256) (a : Fin 32) (s : State) : Out :=
  s.gatedE [a] 0 w.val false (fun s =>
    s.matIssue (fun _ m => if s.regNat a / 2 ^ 17 != 0 then 2 else if m.halted then 9 else 0)
      (fun s => s.enterMatrix k 8 (s.reg a) 0))

/-- The `MJOIN` of a group at the head of a core's queue. -/
def State.joinAtHead (s : State) (core job gid : Nat) : Option MatCmd :=
  match (s.coreAt core).mat.queue.head? with
  | some x =>
    if x.join.isNone && x.fn == 8 && x.ra.toNat % 65536 == gid && (s.taskAt x.who.task).job == job then some x else none
  | none => none

/-- Release and acquire at DIE scope for a core: dirty lines go home and the rest leave (13_consistency R336, R337). -/
def State.refreshCore (s : State) (core : Nat) : State :=
  (s.flushWhere core (fun _ => true)).dropClean core (fun _ => true)

/-- Joins that no group answers for complete at once. -/
def State.joinAlone (s : State) (job gid : Nat) : State :=
  (s.cores.map (·.1)).foldl (fun s c =>
    let s := s.dropJoins c
    match s.joinAtHead c job gid with
    | some x => if (s.coreAt c).mat.halted then s.matSkip c x else s.matDone c x
    | none => s) s

/-- Every member has joined with the same count of completed tiles (R272). -/
def execMjoinComplete (job gid : Nat) (s : State) : Out :=
  match s.groups.find? (fun g => g.formed && g.job == job && g.gid == gid) with
  | none => .next (s.joinAlone job gid)
  | some g =>
    let s := g.members.foldl State.dropJoins s
    let heads := g.members.filterMap (fun c => (s.joinAtHead c job gid).map (fun x => (c, x)))
    let halted := heads.filter (fun h => (s.coreAt h.1).mat.halted)
    let count := FMap.get 0 g.doneTiles (g.members.headD 0)
    if !halted.isEmpty then .next (halted.foldl (fun s h => s.matSkip h.1 h.2) s)
    else if heads.length = g.members.length && g.members.all (fun c => FMap.get 0 g.doneTiles c == count) then
      let s := g.members.foldl State.refreshCore s
      let s := heads.foldl (fun s h => s.matDone h.1 h.2) s
      let ends := heads.any (fun h => h.2.ra.getLsbD 16)
      .next (if ends then { s with groups := s.groups.filter (fun x => !(x.formed && x.job == job && x.gid == gid)) } else s)
    else if g.members.any (fun c => (s.coreAt c).mat.queue.head?.any (fun x => x.join.isSome)) then
      .next (s.after (acNs 16) (.mjoinComplete job gid))
    else .next s

/-- A member has waited too long on a chunk: FC-HANG of the task (R275). -/
def execGroupWatchdogFire (job gid : Nat) (s : State) : Out :=
  match s.groups.find? (fun g => g.formed && g.job == job && g.gid == gid) with
  | none => .next s
  | some g => .next ((s.note (.reported 3 g.task)).containedFault g.task 3)

end Machine
end Sys2Proof
end

