-- ==== Sys2Proof/Machine/Copy.lean ====
section
/-!
DEFINITION. The copy engines (12_copy R295 to R330): engine registers, tokens, the commands at issue, boxes, directed
reads, destination arithmetic with its ORDERED banks, parity updates, and items for tasks.
-/
namespace Sys2Proof
namespace Machine

/-! ## Tokens and engine registers (R299 to R302) -/

/-- `WAIT` (R299). -/
def execWait (w : Fin 256) (s : State) : Out := s.gatedE [] 0 w.val false (fun s => s.retire)

/-- The status word of Table 12-3. -/
def Token.status (k : Token) : Nat :=
  let kind := match k.kind with | .none => 0 | .neg => 1 | .fault => 2
  k.code * 2 ^ 56 + kind * 2 ^ 54 + boolNat k.dup * 2 ^ 53 + boolNat k.more * 2 ^ 52 + k.box * 2 ^ 32 + k.count

/-- A precise copy fault (R305). -/
def State.copyTrap (s : State) (code : Nat) : State := s.trap 0x17 (BitVec.ofNat 64 code)

def execTokq (k : Fin 8) (w : Fin 256) (a b : Fin 32) (s : State) : Out :=
  s.gatedE [a] b w.val false (fun s =>
    let v := s.regNat a
    if v / 4 ≠ 0 then s.copyTrap 1
    else
      let t := s.curSlot.token k
      let r := if bitAt v 1 then t.addr else t.status
      let s := if bitAt v 0 then s.modCur (fun x => x.setToken k { count := t.count }) else s
      (s.setReg b (BitVec.ofNat 64 r)).retire)

/-- Engine registers held per slot (Table 12-4). -/
def slotEng (e : Nat) : Bool := e ≤ 1 || (32 ≤ e && e ≤ 34) || (40 ≤ e && e ≤ 46)

def execEngw (e : Fin 64) (w : Fin 256) (a : Fin 32) (s : State) : Out :=
  s.gatedE [a] 0 w.val false (fun s =>
    let n := e.val
    if slotEng n then (s.modCur (fun x => { x with eng := FMap.set n (s.reg a) x.eng })).retire
    else if 17 ≤ n ∧ n ≤ 31 then
      if !s.ownsMatrix s.cur then s.matTrap 1
      else if n ≤ 23 then
        (s.modMat (coreOfSlot s.cur) (fun m => { m with e := FMap.set n (s.reg a) m.e })).retire
      else s.retire
    else s.retire)

def execEngr (e : Fin 64) (w : Fin 256) (b : Fin 32) (s : State) : Out :=
  s.gatedE [] b w.val false (fun s =>
    let n := e.val
    let ctx := (s.coreAt (coreOfSlot s.cur)).mat.e
    if slotEng n then (s.setReg b (FMap.get 0 s.curSlot.eng n)).retire
    else if 17 ≤ n ∧ n ≤ 31 ∧ !s.ownsMatrix s.cur then s.matTrap 1
    else if 16 ≤ n ∧ n ≤ 23 then (s.setReg b (FMap.get 0 ctx n)).retire
    else (s.setReg b 0).retire)

/-! ## Fields of a command -/

def Cmd.e (c : Cmd) (n : Nat) : Nat := (FMap.get 0 c.eng n).toNat
def Cmd.rlen (c : Cmd) : Nat := c.e 41 % 2 ^ 24 + 1
def Cmd.nrow (c : Cmd) : Nat := fieldAt (c.e 41) 32 16 + 1
def Cmd.sstr (c : Cmd) : Word := strideOf (c.e 40)
def Cmd.dstr (c : Cmd) : Word := strideOf (c.e 40 / 2 ^ 32)
def Cmd.dkind (c : Cmd) : Nat := if c.fn = 0 then fieldAt (c.e 42) 12 2 else 0
def Cmd.nrec (c : Cmd) : Nat := fieldAt (c.e 42) 8 4 + 1
def Cmd.negtrap (c : Cmd) : Bool := bitAt (c.e 42) 3
def Cmd.onCons (c : Cmd) : Bool := bitAt (c.e 42) 4
def arOp (e44 : Nat) : Nat := e44 % 16
def arType (e44 : Nat) : Nat := fieldAt e44 4 3
def arOrd (e44 : Nat) : Bool := bitAt e44 8
def arTee (e44 : Nat) : Bool := bitAt e44 9
def arTag (e44 : Nat) : Nat := fieldAt e44 12 4
def arSrc (e44 : Nat) : Nat := fieldAt e44 16 6
def arNsrcM1 (e44 : Nat) : Nat := fieldAt e44 24 6
def arRound (e44 : Nat) : Nat := fieldAt e44 32 16
/-- Bytes of an element. -/
def arBytes (e44 : Nat) : Nat := match arType e44 with | 0 => 4 | 1 => 2 | 2 => 2 | 3 => 4 | _ => 8
def Cmd.isOpen (c : Cmd) : Bool := c.fn == 4 && arOp (c.e 44) == 4
/-- Destination bytes per source byte (R304). -/
def Cmd.spread (c : Cmd) : Nat :=
  if c.fn = 4 ∧ arOp (c.e 44) = 3 then
    if arType (c.e 44) = 0 then 16 else if arType (c.e 44) ≤ 2 then 32 else 1
  else 1
def Cmd.quantum (c : Cmd) : Nat := 4096 / c.spread

/-! ## Boxes of a rectangle (R304) -/

/-- How many boxes a rectangle is cut into. -/
def boxCount (rlen nrow q : Nat) : Nat :=
  if rlen ≤ q then (nrow + q / rlen - 1) / (q / rlen) else nrow * ((rlen + q - 1) / q)

/-- Box `b` as (row, column, bytes). -/
def boxRows (rlen nrow q b : Nat) : List (Nat × Nat × Nat) :=
  if rlen ≤ q then
    let h := q / rlen
    (List.range (min ((b + 1) * h) nrow - b * h)).map (fun i => (b * h + i, 0, rlen))
  else
    let k := (rlen + q - 1) / q
    [(b / k, b % k * q, min q (rlen - b % k * q))]

/-- Boxes of one item. -/
def Cmd.perItem (c : Cmd) : Nat := boxCount c.rlen c.nrow c.quantum
def Cmd.rows (c : Cmd) (b : Nat) : List (Nat × Nat × Nat) := boxRows c.rlen c.nrow c.quantum b

/-! ## Issue (R303, R305) -/

/-- A reserved bit is set in an engine register. -/
def engReserved (n v : Nat) : Bool :=
  match n with
  | 41 => v / 2 ^ 48 != 0 || fieldAt v 24 8 != 0
  | 42 => v / 2 ^ 25 != 0 || fieldAt v 14 2 != 0 || fieldAt v 5 3 != 0
  | 43 => v / 2 ^ 48 != 0
  | 44 => v / 2 ^ 48 != 0 || fieldAt v 30 2 != 0 || fieldAt v 22 2 != 0 || fieldAt v 10 2 != 0 || bitAt v 7
  | 45 => v / 2 ^ 48 != 0
  | 46 => fieldAt v 14 18 != 0
  | _ => false

/-- The engine registers that a command reads (Table 12-12). -/
def engRead (fn : Nat) : List Nat :=
  match fn with
  | 0 => [40, 41, 42, 43, 46]
  | 1 => [40, 41, 42, 43, 45]
  | 4 => [40, 41, 42, 43, 44, 45]
  | _ => [40, 41, 42]

/-- The first failing check of Table 12-13, or 0. -/
def Cmd.fault (c : Cmd) (owns : Bool) : Nat :=
  let e44 := c.e 44
  let dk := fieldAt (c.e 42) 12 2
  let ar := c.fn == 4
  let z := arBytes e44
  let al := if arOp e44 = 3 then 64 else z
  let a := c.ra.toNat
  let b := c.rb.toNat
  if (engRead c.fn).any (fun n => engReserved n (c.e n)) || dk == 3 || (ar && (4 < arOp e44 || 4 < arType e44)) ||
      (c.fn == 0 && dk == 1 && fieldAt (c.e 42) 20 5 != 0) then 1
  else if 4096 < c.perItem then 2
  else if (ar && ((!c.isOpen && a % z != 0) || c.sstr.toNat % z != 0 || c.rlen % z != 0 || b % al != 0 ||
        c.dstr.toNat % al != 0)) ||
      (c.fn == 0 && dk == 2 && c.rlen * c.nrow % 8 != 0) || (c.fn == 2 && b % 16 != 0) ||
      (c.fn == 3 && (a % 16 != 0 || b % 16 != 0)) then 3
  else if (c.fn != 0 && dk != 0) || (c.fn != 2 && c.fn != 3 && fieldAt (c.e 42) 8 4 != 0) ||
      (ar && (arNsrcM1 e44 < arSrc e44 || (arTee e44 && !arOrd e44) || ((arOrd e44 || arTee e44) && c.isOpen) ||
        (arOp e44 == 3 && 3 ≤ arType e44))) then 4
  else if c.onCons && !owns then 5 else 0

/-- Matrix commands that read bytes of memory, of the B-store or of the accumulators (10_matrix Table 10-4). -/
def MatCmd.reads (x : MatCmd) : Bool := x.join.isNone && [1, 2, 3, 4, 6, 34].contains x.fn

/-- A copy command by its number: one of this package's engines, or one of another package whose boxes come here (log entry
124). -/
def State.findOwn (s : State) (id : Nat) : Option Cmd := s.cmds.find? (fun c => c.id == id)
def State.findCmd (s : State) (id : Nat) : Option Cmd := (s.cmds ++ s.fabric.guests).find? (fun c => c.id == id)
def State.modCmd (s : State) (id : Nat) (f : Cmd → Cmd) : State :=
  let g := fun (c : Cmd) => if c.id = id then f c else c
  { s with cmds := s.cmds.map g, fabric := { s.fabric with guests := s.fabric.guests.map g } }

/-- The posted stores of a slot that are on their way: a command issued after them observes them (R296). -/
def State.storesOf (s : State) (b : Binding) : List Nat :=
  (s.msgs.filter (fun m => m.journal.isSome && m.who == b)).map (·.id)

/-- Enters a copy command (R295, R297, R370). -/
def State.enterCopy (s : State) (k : Fin 8) (fn : Nat) (a b : Word) : State :=
  let x := s.curSlot
  let core := coreOfSlot s.cur
  let eng := (engRead fn).map (fun n => (n, FMap.get 0 x.eng n))
  let q := (FMap.get 0 x.eng 42).toNat % 8
  let c : Cmd :=
    { id := s.fresh, who := x.who, core := core, asid := s.asidOf s.cur, fn := fn, token := k.val, queue := q, ra := a,
      rb := b, eng := eng }
  let waits := if c.onCons && fn ≤ 2 then ((s.coreAt core).mat.queue.filter MatCmd.reads).map (·.id) else []
  let c : Cmd := { c with nbox := c.perItem, waits := waits, stores := s.storesOf x.who }
  let code := c.fault (s.ownsMatrix s.cur)
  let mine := s.cmds.countP (fun (y : Cmd) => y.who == x.who)
  if code ≠ 0 then s.copyTrap code
  else if 16 ≤ s.copyUse core q || 16 ≤ mine || x.tokenFull k.val then s.bubble
  else
    let s := s.bumpId.modCore core (fun y => { y with
      queues := FMap.set q (FMap.get [] y.queues q ++ [.cmd c.id]) y.queues,
      lastCopy := FMap.set q (c.id, false) y.lastCopy })
    let s := { s with cmds := s.cmds ++ [c] }.modCur (fun y => (y.countUp k.val).retire)
    s.push (.engineBoxIssue core q)

/-- The value of an engine register of the current slot. -/
def State.engNat (s : State) (n : Nat) : Nat := (FMap.get 0 s.curSlot.eng n).toNat

/-- `SEND` (R306, R309): rb is read for DKIND 00 only (R303). -/
def execSend (k : Fin 8) (w : Fin 256) (a b : Fin 32) (s : State) : Out :=
  let window := fieldAt (s.engNat 42) 12 2 = 0
  s.gatedE (if window then [a, b] else [a]) 0 w.val true
    (fun s => s.enterCopy k 0 (s.reg a) (if window then s.reg b else 0))

def execSendx (k : Fin 8) (w : Fin 256) (a b : Fin 32) (s : State) : Out :=
  s.gatedE [a, b] 0 w.val true (fun s => s.enterCopy k 1 (s.reg a) (s.reg b))

def execDget (k : Fin 8) (w : Fin 256) (a b : Fin 32) (s : State) : Out :=
  s.gatedE [a, b] 0 w.val true (fun s => s.enterCopy k 2 (s.reg a) (s.reg b))

def execDgetl (k : Fin 8) (w : Fin 256) (a b : Fin 32) (s : State) : Out :=
  s.gatedE [a, b] 0 w.val true (fun s => s.enterCopy k 3 (s.reg a) (s.reg b))

/-- `DARITH` (R316): ra is not read for OPEN (R303). -/
def execDarith (k : Fin 8) (w : Fin 256) (a b : Fin 32) (s : State) : Out :=
  let opens := arOp (s.engNat 44) = 4
  s.gatedE (if opens then [b] else [a, b]) 0 w.val true
    (fun s => s.enterCopy k 4 (if opens then 0 else s.reg a) (s.reg b))

/-- `CFOLLOW` (R325): the tile enters the matrix queue and waits for the last command of the copy queue. -/
def execCfollow (k : Fin 8) (w : Fin 256) (a b : Fin 32) (s : State) : Out :=
  s.gatedE [a, b] 0 w.val true (fun s =>
    let core := coreOfSlot s.cur
    let m := (s.coreAt core).mat
    let r := s.runOf k (s.reg a)
    let code := s.mtileCode core r m.halted
    if !s.ownsMatrix s.cur then s.copyTrap 5
    else if code ≠ 0 then s.matTrap code
    else if 16 ≤ s.matUse core || s.curSlot.tokenFull k.val then s.bubble
    else
      let last := FMap.find (s.coreAt core).lastCopy (s.regNat b % 8)
      let open' := last.any (fun l => s.cmds.any (fun c => c.id == l.1))
      let x : MatCmd :=
        { id := s.fresh, fn := 4, who := s.curSlot.who, token := k.val, ra := s.reg a, rb := s.reg b, cfg := r.cfg,
          regs := r.regs, follow := if open' then last.map (·.1) else none, copyDone := !open',
          skipped := last.any (·.2) }
      let s := s.bumpId.modMat core (fun m => { m with queue := m.queue ++ [x] })
      (s.modCur (fun y => (y.countUp k.val).retire)).push (.cfollowMtileStart core))

/-- `CQUERY` (R326). -/
def execCquery (k : Fin 8) (w : Fin 256) (a b : Fin 32) (s : State) : Out :=
  s.gatedE [a] b w.val true (fun s =>
    let q := FMap.get [] (s.coreAt (coreOfSlot s.cur)).queues (s.regNat a % 8)
    let all := q.filterMap (fun e => match e with | .cmd id => s.findCmd id | .join _ => none)
    let mine := all.filter (fun c => c.who == s.curSlot.who && c.token == k.val)
    let done := (mine.head?.map (fun c => c.settled.length)).getD 0
    let total := (mine.head?.map (·.nbox)).getD 0
    (s.setReg b (BitVec.ofNat 64 (mine.length + all.length * 2 ^ 8 + done * 2 ^ 16 + total * 2 ^ 32))).retire)

/-- `CCANCEL` (R327). -/
def execCcancel (k : Fin 8) (w : Fin 256) (a : Fin 32) (s : State) : Out :=
  s.gatedE [a] 0 w.val true (fun s =>
    let core := coreOfSlot s.cur
    let m := if s.regNat a % 256 = 0 then 255 else s.regNat a % 256
    let who := s.curSlot.who
    let s := { s with cmds := s.cmds.map (fun (c : Cmd) =>
      if c.who = who ∧ c.token = k.val ∧ bitAt m c.queue then { c with cancelled := true } else c) }
    (s.pushAll (((List.range 8).filter (fun q => bitAt m q)).map (fun q => .engineBoxIssue core q))).retire)

/-! ## Sides of a box -/

/-- What one side asks of a range, which SPAs and homes it may have, its codes for no translation and for missing rights,
and the range set that a command issued before a range commit's hold keeps (04_placement R93). -/
structure SideRule where
  die : Nat
  asid : Nat
  rights : Range → Bool
  home : Nat → Home → Bool
  writes : Bool
  set : Option (List Range) := none
  noEntry : Nat := 0x48
  noRight : Nat := 0x49

/-- Translation by the set that the side keeps, else by the tables of its die. -/
def State.sideTranslate (s : State) (u : SideRule) (v n : Nat) : Option (Range × Nat) :=
  translateIn (u.set.getD (s.rangesOf u.die u.asid)) v n

/-- One stretch translated and checked: a code and the address, or range and SPA (R306, R314, R323). -/
def State.sideSpa (s : State) (u : SideRule) (va : Word) (n : Nat) : Except (Nat × Nat) (Range × Nat) :=
  let v := va.toNat
  match s.sideTranslate u v n with
  | none => .error (u.noEntry, v)
  | some (e, a) =>
    if !u.rights e then .error (u.noRight, v)
    else if !u.home a (s.home a) then .error (0x4C, v)
    else if u.writes && e.ecg != 0 &&
        (cutAt 256 a n).any (fun p => (s.dataMember (s.home p.1).die e.ecg p.1 p.2).isNone) then .error (0x4A, v)
    else .ok (e, a)

/-- The pieces of a box on one side: row i begins at `base + i * stride`, and a source byte takes `f` bytes there. -/
def State.pieces (s : State) (u : SideRule) (base stride : Word) (f : Nat) :
    List (Nat × Nat × Nat) → Nat → Except (Nat × Nat) (List Piece)
  | [], _ => .ok []
  | (r, c, n) :: rest, off =>
    let va := base + BitVec.ofNat 64 r * stride + BitVec.ofNat 64 (c * f)
    match s.sideSpa u va (n * f) with
    | .error x => .error x
    | .ok (e, a) =>
      match s.pieces u base stride f rest (off + n) with
      | .error x => .error x
      | .ok ps => .ok ({ va := va.toNat, spa := a, off := off, len := n * f, ecg := e.ecg } :: ps)

/-- The slots whose registers a piece covers. -/
def State.pieceSlots (s : State) (p : Piece) : List Nat :=
  ((cutAt 8 p.spa p.len).map (fun c => (s.home c.1).regSlot)).eraseDups

/-- No home performs a piece, here or in another package: it names no window, runs past one, or writes REG or TBL bytes in
a length or at a place that they do not have (04_placement R76, R78 to R80). -/
def State.pieceShape (s : State) (write : Bool) (p : Piece) : Bool :=
  let h := s.home p.spa
  let z := s.home (p.spa + p.len - 1)
  h.win == .bad || z.win != h.win || (h.win != .dram && z.coreNum != h.coreNum) ||
    (write && ((h.win == .reg && (p.spa % 8 != 0 || p.len % 8 != 0)) ||
      (h.win == .tbl && (p.spa % 2 != 0 || p.len % 2 != 0))))

/-- The negative reply that a piece meets at its home, 0 for none, or RIGHTS for a locked byte (R79, R80, R204;
16_recovery R386, R394, R401). -/
def State.pieceCode (s : State) (asid : Nat) (write : Bool) (p : Piece) : Nat :=
  let h := s.home p.spa
  if !h.outside && s.dieCode h.die != 0 then s.dieCode h.die
  else if s.pieceShape write p then 1
  else if h.outside then s.outsideCode p.spa p.spa
  else if h.win = .reg then
    if (s.pieceSlots p).any (fun k => (s.slotAt k).bind.isNone) then 4
    else if (s.pieceSlots p).any (fun k => !s.mayReach asid (s.asidOf k) h.die) then 1 else 0
  else if write && s.locked p.spa p.len then 0x49
  else if (cutAt 256 p.spa p.len).any (fun c => s.unrecoverable c.1) then 5
  else if !write && s.isBad h.key p.len then 5 else 0

/-- A piece writes a register that must not be written now (06_scalar R140). -/
def State.pieceBusy (s : State) (p : Piece) : Bool :=
  let h := s.home p.spa
  h.win == .reg && !h.outside && (cutAt 8 p.spa p.len).any (fun c =>
    let y := s.home c.1
    (s.slotAt y.regSlot).windowBusy y.regNum)

/-- A piece waits: at the router for a die whose loss is not yet decided (16_recovery R404), for a chunk that is being
rebuilt, or for a register that must not be written now. -/
def State.pieceWaits (s : State) (write : Bool) (p : Piece) : Bool :=
  let h := s.home p.spa
  s.lostHome h || (h.win == .dram && (cutAt 256 p.spa p.len).any (fun c => (s.lostChunk c.1).isSome)) ||
    (write && s.pieceBusy p)

/-- The chunks that pieces wait for are asked of the rebuild. -/
def State.askChunks (s : State) (ps : List Piece) : State :=
  let due := ps.flatMap (fun p => (cutAt 256 p.spa p.len).filterMap (fun c => s.lostChunk c.1))
  s.modPkg (fun k => { k with rebuild := { k.rebuild with
    waitingOn := k.rebuild.waitingOn ++ due.eraseDups.filter (fun d => !k.rebuild.waitingOn.contains d) } })

def State.pieceBytes (s : State) (p : Piece) : List Byte :=
  let h := s.home p.spa
  if !h.outside && (h.win == .reg || h.win == .tbl) then (List.range p.len).flatMap (fun i => s.readBytes (s.home (p.spa + i)) 1)
  else s.homeBytes p.spa p.len

/-- A byte as a task of a core observes it: the head of an ordered set finds its own buffered bytes (01_work R22). -/
def State.ownByte (s : State) (core task a : Nat) (b : Byte) : Byte :=
  match (s.coreAt core).spec.find? (fun l => l.task == task && sameLine l.line (a / 32)) with
  | some l => if l.mask.getD (a % 32) false then l.bytes.getD (a % 32) 0 else b
  | none => b

/-- The source bytes of a command: they hold every earlier write of the issuing slot, its task's buffered ones among them
(R296). -/
def State.sourceBytes (s : State) (b : Box) : List Byte :=
  b.src.flatMap (fun p => (s.pieceBytes p).mapIdx (fun i x => s.ownByte b.core b.who.task (p.spa + i) x))

/-- A posted store that the slot issued before the command is still on its way to a source byte (R296). -/
def State.storesInto (s : State) (c : Cmd) (src : List Piece) : Bool :=
  s.msgs.any (fun m => c.stores.contains m.id &&
    src.any (fun p => spaBits m.spa < spaBits p.spa + p.len && spaBits p.spa < spaBits m.spa + m.width))

/-- An uncorrectable word under a piece that was read is reported. -/
def State.pieceReport (s : State) (p : Piece) : State :=
  let h := s.home p.spa
  if !h.outside && s.isBad h.key p.len then s.eccFound noTaskId h p.spa p.ecg else s

/-! ## Writing a piece -/

/-- Where the holder of a parity update keeps the chunk (R323). -/
def State.holderSpa (s : State) (u : Parity) : Nat :=
  s.chunkSpa u.die u.group ((FMap.get {} (s.dieAt u.die).ecg u.group).k + u.p) u.chunk

/-- A write into a protected range: the data at once, and a packet for every parity member of each chunk (R323). -/
def State.putProtected (s : State) (box : Nat) (p : Piece) (bs : List Byte) : State :=
  (cutAt 256 p.spa p.len).foldl (fun s c =>
    let h := s.home c.1
    let part := (bs.drop (c.1 - p.spa)).take c.2
    let ds := s.chunkDeltas h.die p.ecg c.1 part
    let m := (s.dataMember h.die p.ecg c.1 c.2).getD 0
    let s := (s.under h part.length).store h.key part
    ds.foldl (fun s d =>
      (List.range (FMap.get {} (s.dieAt h.die).ecg p.ecg).p).foldl (fun s q =>
        let u : Parity :=
          { id := s.fresh, die := h.die, group := p.ecg, p := q, member := m, chunk := d.1, deltas := d.2, box := box }
        let s := { s.bumpId with parity := s.parity ++ [u] }
        let holder := s.holderSpa u
        if (s.home holder).outside then s.sendPacket { s.packetFor holder (.parity u.id) with bulk := true }
        else s.push (.parityUpdate u.id)) s) s) s

/-- Words written into registers by window, in both copies of a checked pair (R79, 15_interrupts R378). -/
def State.putRegs (s : State) (p : Piece) (bs : List Byte) : State :=
  (cutAt 8 p.spa p.len).foldl (fun s c =>
    let h := s.home c.1
    let v := BitVec.ofNat 64 (leNat ((bs.drop (c.1 - p.spa)).take 8))
    match (s.slotAt h.regSlot).bind with
    | some b => s.modSlots (s.copiesOf b) (fun x => x.windowWrite h.regNum v)
    | none => s) s

/-- Bytes written at the home of a piece (R306). -/
def State.putPiece (s : State) (box : Nat) (p : Piece) (bs : List Byte) : State :=
  let h := s.home p.spa
  if h.outside then s
  else if h.win = .reg then s.putRegs p bs
  else if h.win = .tbl then
    let s' := s.modCore h.coreNum (fun c => c.writeTbl h.off bs)
    if (s.coreAt h.coreNum).pairWith.isSome then s'.modCore (partnerCore h.coreNum) (fun c => c.writeTbl h.off bs) else s'
  else if p.ecg = 0 then s.deliverBytes h bs
  else s.putProtected box p bs

/-- Bytes of a box's side that are no box data, charged to its task, written with the parity updates of their range (R314, R323;
17_retire R408). -/
def State.putSide (s : State) (box : Nat) (p : Piece) (bs : List Byte) : State :=
  let s := match s.boxes.find? (fun b => b.id == box) with
    | some b => s.chargeBytes b.who.task (s.home p.spa) bs.length
    | none => s
  if p.ecg = 0 then s.deliverBytes (s.home p.spa) bs else s.putProtected box p bs

/-- A word written and set full, as one access, with the pass that follows. -/
def State.postWord (s : State) (box : Nat) (p : Piece) (f : Nat → Nat) : State :=
  let h := s.home p.spa
  if h.outside then s
  else
    let s := s.putSide box p (leBytes 8 (f ((s.under h 8).loadNat h.key 8)))
    let s := (s.setFull h.key true).homePass h.key
    if h.win = .lm ∧ (s.coreAt h.coreNum).pairWith.isSome then
      s.setFull (h.key + (h.core + 4) % 8 * 2 ^ 30 - h.core * 2 ^ 30) true
    else s

/-! ## Boxes on their way -/

def State.modBox (s : State) (id : Nat) (f : Box → Box) : State :=
  { s with boxes := s.boxes.map (fun b => if b.id = id then f b else b) }
def State.findBox (s : State) (id : Nat) : Option Box := s.boxes.find? (fun b => b.id == id)

/-- The event by which a box reaches its destination. -/
def State.boxEvent (s : State) (b : Box) : Event :=
  if b.fn = 4 then
    if arOp b.e44 = 4 then .darithOpenPacket b.id
    else if arOrd b.e44 then .orderedPacketArrival b.id else .darithPacketApply b.id
  else if b.fn = 2 ∨ b.fn = 3 then .directedReadDelivery b.id
  else if (s.findCmd b.cmd).any (fun c => c.dkind != 0) then .taskItemDelivery b.id
  else .boxWrite b.id

/-- The package and logical die to which a box goes, when that is not this package. -/
def State.boxAway (s : State) (b : Box) : Option (Nat × Nat) :=
  if b.fn = 2 ∨ b.fn = 3 then
    let d := fieldAt b.recip 112 4
    if bitAt b.recip 61 && fieldAt b.recip 48 13 != s.fabric.coord then some (fieldAt b.recip 48 13, d)
    else if (s.mapAt d).remote then some ((s.mapAt d).pkg, d) else none
  else match b.pieces with
    | p :: _ =>
      let h := s.home p.spa
      if !h.outside then none
      else if spaFabric p.spa && spaPkg p.spa != s.fabric.coord then some (spaPkg p.spa, spaDie p.spa)
      else some ((s.mapAt (spaDie p.spa)).pkg, spaDie p.spa)
    | [] =>
      match s.findCmd b.cmd with
      | some c =>
        let w := c.e 46
        if c.dkind ≠ 0 ∧ bitAt w 13 ∧ w % 8192 ≠ s.fabric.coord then some (w % 8192, 12) else none
      | none => none

/-- The flow of a box: its core's, for the queue of its command (14_fabric R353). -/
def State.engineFlow (s : State) (b : Box) : Nat :=
  b.core % 512 + 512 * (((s.findCmd b.cmd).map (fun (c : Cmd) => c.queue)).getD 0 + 1)

/-- A box leaves for its destination: as a packet of the fabric, or at once. -/
def State.forward (s : State) (id : Nat) : State :=
  match s.findBox id with
  | none => s
  | some b =>
    match s.boxAway b with
    | none => s.push (s.boxEvent b)
    | some (pkg, die) =>
      s.sendPacket { id := 0, load := .box id, dst := pkg, die := die, bulk := b.fn != 2 && b.fn != 3, flow := s.engineFlow b,
                     remote := (s.mapAt die).remote && pkg == (s.mapAt die).pkg }

/-- An outcome of a box: a code with its address, acknowledged to the engine. -/
def State.boxOut (s : State) (id code va : Nat) (owner : Bool) : State :=
  (s.modBox id (fun b => { b with outcome := code, addr := va, ownerSide := owner })).push (.boxAck id)

/-- The faulting address of a box that no home has performed: that of its destination, or of its part at the recipient
(R308). Of an item for a task the rules name none. -/
def State.boxVa (s : State) (b : Box) : Nat :=
  if b.fn = 2 ∨ b.fn = 3 then b.recip % 2 ^ 48 else (b.pieces.head?.map (·.va)).getD (s.freeAddr b.id)

/-- A performed box is acknowledged once no parity update of it is left (R323). -/
def State.boxDone (s : State) (id : Nat) : State :=
  if s.parity.any (fun u => u.box == id) then s else s.push (.boxAck id)

/-- A box that waits for a register has an entry of the 32 of that core's network interface; where there is none it is
refused with RETRY-FULL (06_scalar R140). It is tried again when the register may be written, and from time to time. -/
def State.boxWaits (s : State) (b : Box) (core va : Nat) (e : Event) : State :=
  if b.waitsAt.isNone && s.coreListFull core then s.boxOut b.id 3 va false
  else
    let s := s.modBox b.id (fun x => { x with waitsAt := some (core, e) })
    if s.timers.any (fun t => t.ev == e) then s else s.after (acNs 64) e

/-- The arrival word of a box rises (R306). -/
def State.boxArrives (s : State) (b : Box) : State :=
  match b.arrive with
  | some p => s.postWord b.id p (fun n => (n + 1) % 2 ^ 64)
  | none => s

/-- Pieces without the register words that an input block has taken (15_interrupts R369). -/
def Box.left (b : Box) (ps : List Piece) : List Piece :=
  if b.landed.isEmpty then ps
  else ps.flatMap (fun p =>
    if (cutAt 8 p.spa p.len).any (fun c => b.landed.contains c.1) then
      (cutAt 8 p.spa p.len).filterMap (fun c => if b.landed.contains c.1 then none
        else some { p with va := p.va + (c.1 - p.spa), spa := c.1, off := p.off + (c.1 - p.spa), len := c.2 })
    else [p])

/-- A piece is written into a table while what the weight path does to it is due in the same moment (11_grouped R293). -/
def State.pieceTableDue (s : State) (p : Piece) : Bool :=
  let h := s.home p.spa
  h.win == .tbl && !h.outside && s.tableDue h.coreNum

/-- Lands a box: all its pieces are checked, and nothing of it is written unless all of them pass (R308). `words` are other
words that it writes. -/
def State.land (s : State) (b : Box) (ps words : List Piece) (e : Event) (act : State → State) : State :=
  let all := ps ++ b.snap ++ b.arrive.toList ++ words
  let s := if ps.any s.pieceBusy then s.modBox b.id (fun x => { x with pieces := ps }) else s
  if ps.any s.pieceTableDue then s.push e
  else if all.any (s.pieceWaits true) then
    match ps.find? s.pieceBusy with
    | some p => s.boxWaits b (s.home p.spa).coreNum p.va e
    | none => (s.askChunks all).after (acNs 64) e
  else match all.find? (fun p => s.pieceCode b.asid true p != 0) with
    | some p => s.boxOut b.id (s.pieceCode b.asid true p) p.va false
    | none =>
      ((act s).boxArrives b).boxDone b.id

/-- The data of a box put into pieces of the same lengths. -/
def State.putAll (s : State) (b : Box) (ps : List Piece) (data : List Byte) : State :=
  ps.foldl (fun s p =>
    (s.chargeBytes b.who.task (s.home p.spa) p.len).putPiece b.id p ((data.drop p.off).take p.len)) s

/-- A box of `SEND` or `SENDX` is written at its destination (R306, R307). -/
def execBoxWrite (box : Nat) (s : State) : Out :=
  match s.findBox box with
  | none => .next s
  | some b => .next (s.land b (b.left b.pieces) [] (.boxWrite box) (fun s =>
    (s.putAll b (b.left b.pieces) b.data).putAll b b.snap b.data))

/-- A parity holder applies an update; the last one lets the box be acknowledged (R323). -/
def execParityUpdate (update : Nat) (s : State) : Out :=
  match s.parity.find? (fun u => u.id == update) with
  | none => .next s
  | some u =>
    let s := { s with parity := s.parity.filter (fun v => v.id != update) }
    .next ((s.applyParity u.die u.group u.p u.member u.chunk u.deltas).boxDone u.box)

/-! ## Settling -/

/-- The entry's RESULT in its list (R312). -/
def State.writeResult (s : State) (task : Nat) (e : ListEntry) (code : Nat) : State :=
  (s.chargeBytes task (s.home (e.spa + 7)) 1).deliverBytes (s.home (e.spa + 7)) [BitVec.ofNat 8 code]

/-- The item of a box of a directed read: the entry of a list. -/
def Cmd.entryOf (c : Cmd) (num : Nat) : Nat := num / c.perItem

/-- A box number is settled; a list entry all of whose boxes are settled has its RESULT written. -/
def State.settle (s : State) (id num : Nat) : State :=
  let s := s.modCmd id (fun c => if c.settled.contains num then c else { c with settled := num :: c.settled })
  match s.findCmd id with
  | none => s
  | some c =>
    if c.fn ≠ 3 then s
    else
      let i := c.entryOf num
      if (List.range c.perItem).all (fun j => c.settled.contains (i * c.perItem + j)) then
        match c.entries[i]? with
        | some e => s.writeResult c.who.task e (FMap.get 0x80 c.results i)
        | none => s
      else s

/-- An outcome of a box: recorded; the side takes no further box (R308, R315). `side` 0 is the whole command. -/
def State.fail (s : State) (id num side code va : Nat) : State :=
  match s.findCmd id with
  | none => s
  | some c =>
    let fault := outKind code == .fault
    let stops := fault || c.fn == 2 || c.fn == 3 || c.dkind != 0
    let s := s.recordOutcome c.who c.token c.negtrap code num va
    s.modCmd id (fun c => { c with
      stopped := if stops then side :: c.stopped else c.stopped, faulted := c.faulted || fault,
      results := if c.fn = 3 ∧ (FMap.find c.results (c.entryOf num)).isNone then FMap.set (c.entryOf num) code c.results
        else c.results })

/-- A partial item of a command that stopped is discarded (R439). -/
def State.dropPartial (s : State) (cmd : Nat) : State :=
  { s with tasks := s.tasks.map (fun t => { t with staging := t.staging.filter (fun g =>
      !(g.2.item.any (fun i => i.1 == cmd))) }) }

/-- A command completes (R308, R312, R327): flags, token, the next command of its queue, and tiles attached to it. -/
def State.finishCmd (s : State) (c : Cmd) : State :=
  let s := if c.cancelled then
      let s := c.entries.zipIdx.foldl (fun s (e : ListEntry × Nat) =>
        if (List.range c.perItem).all (fun j => c.settled.contains (e.2 * c.perItem + j)) then s
        else s.writeResult c.who.task e.1 (FMap.get 0x0D c.results e.2)) s
      s.recordOutcome c.who c.token c.negtrap 0x0D (s.freeAddr c.id) (s.freeAddr (c.id + 1))
    else s
  let bad := c.faulted || c.cancelled
  let s := s.deliverAll c.who (fun x => x.raise c.flags)
  let s := s.tokenDone c.who c.token
  let s := { s with cmds := s.cmds.filter (fun x => x.id != c.id) }.dropPartial c.id
  let s := s.modCore c.core (fun y => { y with
    queues := y.queues.map (fun e => (e.1, e.2.filter (fun q => q != .cmd c.id))),
    lastCopy := y.lastCopy.map (fun e => if e.2.1 = c.id then (e.1, (c.id, bad)) else e),
    mat := { y.mat with queue := y.mat.queue.map (fun x =>
      if x.follow = some c.id then { x with copyDone := true, skipped := bad } else x) } })
  ((s.push (.cfollowMtileStart c.core)).push (.engineBoxIssue c.core c.queue)).tryCommit c.who.task

/-- Every box has settled; under a cancel, or for a save, a held one counts as settled (R320, R327). -/
def State.boxesSettled (s : State) (c : Cmd) (heldToo : Bool) : Bool :=
  (s.boxes.filter (fun b => b.cmd == c.id)).all (fun b => heldToo && b.held)

def State.tryFinish (s : State) (c : Cmd) : State := if s.boxesSettled c c.cancelled then s.finishCmd c else s

/-- The lowest box that is not complete. -/
def Cmd.floor (c : Cmd) : Nat := ((List.range c.nbox).find? (fun n => !c.settled.contains n)).getD c.nbox

/-- A command that stands in no queue, its task being saved, has its last acknowledgement (R320). -/
def State.savedComplete (s : State) (id : Nat) : Bool :=
  match s.findCmd id with
  | none => false
  | some c =>
    !((FMap.get [] (s.coreAt c.core).queues c.queue).contains (.cmd id)) && c.prepared && s.boxesSettled c false &&
      (c.nbox ≤ c.floor || c.stopped.contains 0)

def State.finishId (s : State) (id : Nat) : State :=
  match s.findCmd id with
  | some c => s.finishCmd c
  | none => s

/-- The acknowledgement, refusal or final acknowledgement of a box reaches its engine; the last one of a command whose
task is PREEMPTED or SWAPPED completes it in the save area (R308, R320). That of a box of another package leaves, and an item
refused here takes no further box. -/
def execBoxAck (box : Nat) (s : State) : Out :=
  match s.findBox box with
  | none => .next s
  | some b =>
    let s := { s with boxes := s.boxes.filter (fun x => x.id != box) }
    match s.findOwn b.cmd with
    | none => .next (if b.outcome ≠ 0 then s.modCmd b.cmd (fun c => { c with stopped := (1 + b.item) :: c.stopped }) else s)
    | some c =>
      let whole := b.ownerSide && c.fn == 2
      let s := if b.outcome ≠ 0 then
          s.fail c.id b.num (if c.fn = 2 ∨ c.fn = 3 then (if whole then 0 else 1 + b.item) else 0) b.outcome b.addr
        else s
      let s := if b.dup then s.deliverAll c.who (fun x => x.modToken (tokenFin c.token) (fun k => { k with dup := true })) else s
      let s := s.modCmd c.id (fun c => { c with flags := c.flags ||| b.flags })
      let s := if s.boxes.any (fun x => x.cmd == c.id && x.num == b.num) then s else s.settle c.id b.num
      .next (if s.savedComplete c.id then s.finishId c.id else s.push (.engineBoxIssue c.core c.queue))

/-! ## Reading tables and lists (R310, R312) -/

/-- A whole stretch of memory read by the engine of a command. -/
def State.engineRead (s : State) (u : SideRule) (asid : Nat) (va : Word) (n : Nat) : Except (Nat × Nat) (Nat × List Byte) :=
  match s.sideSpa u va n with
  | .error x => .error x
  | .ok (e, a) =>
    let p : Piece := { va := va.toNat, spa := a, off := 0, len := n, ecg := e.ecg }
    let code := s.pieceCode asid false p
    if code ≠ 0 then .error (code, va.toNat) else .ok (a, s.pieceBytes p)

/-- What an engine reads whole waits, at a die whose loss is not yet decided or for a chunk (16_recovery R399, R404). -/
def State.engineWaits (s : State) (u : SideRule) (va : Word) (n : Nat) : List Piece :=
  match s.sideSpa u va n with
  | .error _ => []
  | .ok (e, a) => [({ va := va.toNat, spa := a, off := 0, len := n, ecg := e.ecg } : Piece)].filter (s.pieceWaits false)

def State.readRule (_s : State) (c : Cmd) : SideRule :=
  { die := dieOfCore c.core, asid := c.asid, rights := fun e => e.r, home := fun _ _ => true, writes := false, set := c.set }

/-- The list of a `DGETL` lies in the issuing core's LM with R and W rights. -/
def State.listRule (_s : State) (c : Cmd) : SideRule :=
  { die := dieOfCore c.core, asid := c.asid, rights := fun e => e.r && e.w,
    home := fun _ h => !h.outside && h.win == .lm && h.coreNum == c.core, writes := false, set := c.set }

/-- The recipients of the table at g[rb]. -/
def State.readRecipients (s : State) (c : Cmd) : Except (Nat × Nat) (List Nat) :=
  match s.engineRead (s.readRule c) c.asid c.rb (16 * c.nrec) with
  | .error x => .error x
  | .ok (_, bs) =>
    let rs := (List.range c.nrec).map (fun i => leNat ((bs.drop (16 * i)).take 16))
    if rs.any (fun r => bitAt r 63 || fieldAt r 126 2 != 0 || (c.fn == 3 && !bitAt r 62)) then .error (0x0E, c.rb.toNat)
    else .ok rs

/-- Entries `i` and on of a list; `n` are left. -/
def State.readEntries (s : State) (c : Cmd) : Nat → Nat → Except (Nat × Nat) (List ListEntry)
  | 0, _ => .ok []
  | n + 1, i =>
    let va := c.ra + BitVec.ofNat 64 (16 + 16 * i)
    match s.engineRead (s.listRule c) c.asid va 16 with
    | .error x => .error x
    | .ok (a, bs) =>
      let w := leNat (bs.take 8)
      if fieldAt w 52 4 ≠ 0 ∨ c.nrec ≤ fieldAt w 48 4 then .error (0x0E, c.ra.toNat)
      else match s.readEntries c n (i + 1) with
        | .error x => .error x
        | .ok es => .ok ({ owner := w % 2 ^ 48, recip := fieldAt w 48 4, tag := leNat (bs.drop 8), spa := a } :: es)

def State.readList (s : State) (c : Cmd) : Except (Nat × Nat) (List ListEntry) :=
  match s.engineRead (s.listRule c) c.asid c.ra 16 with
  | .error x => .error x
  | .ok (_, bs) =>
    let h := leNat bs
    let n := h % 8192 + 1
    if h / 8192 ≠ 0 ∨ 4096 < n ∨ 4096 < n * c.perItem then .error (0x0E, c.ra.toNat) else s.readEntries c n 0

/-! ## Banks (R318) -/

/-- The bank of a home: the network interface of a core, or a memory controller. -/
def bankOf (h : Home) : Nat :=
  if h.win = .dram then 8192 + h.die * 16 + Config.controllerOf h.die (h.off / 64) % Config.controllers h.die else h.coreNum

def State.arithRule (_s : State) (c : Cmd) : SideRule :=
  { die := dieOfCore c.core, asid := c.asid, rights := fun e => e.r && e.w, home := fun _ h => h.win == .lm || h.win == .dram,
    writes := true, set := c.set }

/-- The number of the bank of an SPA: those of other packages have numbers of their own, above the ones here. -/
def State.bankId (s : State) (a : Nat) : Nat :=
  let h := s.home a
  bankOf h + if h.outside then 2 ^ 15 * (1 + 2 * (s.spaDst a).1 + boolNat (s.spaDst a).2) else 0

/-- The banks that stretches of memory cover, each with an SPA in it and its virtual address (R318). -/
def State.banksOf (s : State) (ps : List Piece) : List (Nat × Nat × Nat) :=
  (ps.flatMap (fun p => (cutAt 64 p.spa p.len).map (fun c => (s.bankId c.1, c.1, p.va + (c.1 - p.spa))))).foldl
    (fun bs b => if bs.any (fun x => x.1 == b.1) then bs else bs ++ [b]) []

/-- The bank of a destination box, by its first byte; none where that does not translate. -/
def State.boxBank (s : State) (c : Cmd) (b : Nat) : Option Nat :=
  match c.rows b with
  | (r, col, _) :: _ =>
    let va := c.rb + BitVec.ofNat 64 r * c.dstr + BitVec.ofNat 64 (col * c.spread)
    match s.sideSpa { s.arithRule c with writes := false } va 1 with
    | .ok (_, a) => some (s.bankId a)
    | .error _ => none
  | [] => none

/-- The bank, number and last mark of each packet: SEQ counts the packets of one bank. -/
def numberPackets (banks : List (Option Nat)) : List (Nat × Nat × Bool) :=
  banks.zipIdx.map (fun (b : Option Nat × Nat) =>
    match b.1 with
    | none => (0, 0, false)
    | some k =>
      (k, (banks.take b.2).countP (fun x => x == some k), (banks.drop (b.2 + 1)).all (fun x => x != some k)))

/-! ## A command is prepared at its queue's head -/

def Cmd.stopAll (c : Cmd) : Cmd := { c with prepared := true, stopped := 0 :: c.stopped, entries := [], nbox := 0 }

/-- The table of a directed read that cannot be read now. -/
def State.tableWaits (s : State) (c : Cmd) : List Piece :=
  if c.fn = 2 ∨ c.fn = 3 then s.engineWaits (s.readRule c) c.rb (16 * c.nrec) else []

/-- The bytes of a directed read's table, and of a list with `n` entries, are charged to its task (17_retire R408). -/
def State.chargeTables (s : State) (c : Cmd) (n : Nat) : State :=
  let ws := (c.rb, 16 * c.nrec) :: (if c.fn = 3 then [(c.ra, 16 + 16 * n)] else [])
  ws.foldl (fun s w =>
    match s.sideSpa (s.readRule c) w.1 w.2 with
    | .ok (_, a) => s.chargeBytes c.who.task (s.home a) w.2
    | .error _ => s) s

/-- What the preparation of a command ends in: an outcome on which it delivers nothing, or its tables. -/
def State.prepare (s : State) (c : Cmd) : State :=
  let refuse := fun (x : Nat × Nat) =>
    (s.recordOutcome c.who c.token c.negtrap x.1 0 x.2).modCmd c.id (fun c => { c.stopAll with faulted := true })
  if c.fn = 2 ∨ c.fn = 3 then
    match s.readRecipients c with
    | .error x => refuse x
    | .ok rs =>
      if c.fn = 2 then (s.chargeTables c 0).modCmd c.id (fun c => { c with prepared := true, recipients := rs })
      else match s.readList c with
        | .error x => refuse x
        | .ok es => (s.chargeTables c es.length).modCmd c.id (fun c => { c with
            prepared := true, recipients := rs, entries := es, nbox := es.length * c.perItem })
  else if c.fn = 4 ∧ (c.isOpen ∨ arOrd (c.e 44)) then
    let banks := (List.range c.perItem).map (s.boxBank c)
    if c.isOpen then
      let sides := (List.range c.perItem).map (fun b => s.pieces (s.arithRule c) c.rb c.dstr 1 (c.rows b) 0)
      let bad := sides.zipIdx.findSome? (fun x => match x.1 with | .error e => some (x.2, e) | .ok _ => none)
      match bad with
      | some (b, x) =>
        (s.recordOutcome c.who c.token c.negtrap x.1 b x.2).modCmd c.id (fun c => { c.stopAll with faulted := true })
      | none =>
        let bs := s.banksOf (sides.flatMap (fun x => match x with | .ok ps => ps | .error _ => []))
        s.modCmd c.id (fun c => { c with prepared := true, banks := bs, nbox := bs.length })
    else s.modCmd c.id (fun c => { c with prepared := true, keys := numberPackets banks })
  else s.modCmd c.id (fun c => { c with prepared := true })

/-! ## Beginning a box -/

/-- The source of a push: the issuing core's LM or CLASS 00 memory of this package, a die of it that a spare of another
package stands in for among it (R306). -/
def State.sourceRule (s : State) (c : Cmd) : SideRule :=
  { die := dieOfCore c.core, asid := c.asid, rights := fun e => e.r,
    home := fun a h => (h.win == .dram && (!h.outside || !spaFabric a || spaPkg a == s.fabric.coord)) ||
      (!h.outside && h.win == .lm && h.coreNum == c.core),
    writes := false, set := c.set }

def State.destRule (_s : State) (c : Cmd) : SideRule :=
  { die := dieOfCore c.core, asid := c.asid, rights := fun e => e.w, home := fun _ _ => true, writes := true, set := c.set }

def State.snapRule (_s : State) (c : Cmd) : SideRule :=
  { die := dieOfCore c.core, asid := c.asid, rights := fun e => e.w && e.ecg != 0, home := fun _ _ => true, writes := true,
    noRight := 0x0F, set := c.set }

def State.ownerRule (_s : State) (c : Cmd) : SideRule :=
  { die := dieOfCore c.core, asid := c.asid, rights := fun e => e.r && e.dsrc, home := fun _ _ => true, writes := false,
    set := c.set }

/-- An aligned word of LM or DRAM that a side writes: an arrival word or a tag word. -/
def State.sideWord (s : State) (u : SideRule) (va : Nat) : Except (Nat × Nat) Piece :=
  if va % 8 ≠ 0 then .error (u.noEntry, va)
  else match s.sideSpa u (BitVec.ofNat 64 va) 8 with
    | .error x => .error x
    | .ok (e, a) => .ok { va := va, spa := a, off := 0, len := 8, ecg := e.ecg }

/-- The arrival word of a side, 0 for none. -/
def State.arrival (s : State) (u : SideRule) (va : Nat) : Except (Nat × Nat) (Option Piece) :=
  if va = 0 then .ok none
  else match s.sideWord u va with
    | .error x => .error x
    | .ok p => .ok (some p)

/-- The arrival word of a push. -/
def State.pushArrival (s : State) (c : Cmd) : Except (Nat × Nat) (Option Piece) :=
  s.arrival { s.destRule c with home := fun _ h => h.win == .lm || h.win == .dram } (c.e 43 % 2 ^ 48)

/-- A box with its source, destination, snapshot and arrival word found. -/
def State.makeBox (s : State) (c : Cmd) (b : Nat) : Except (Nat × Nat) Box :=
  let box : Box :=
    { id := 0, cmd := c.id, who := c.who, core := c.core, asid := c.asid, fn := c.fn, num := b, e44 := c.e 44 }
  let rows := c.rows b
  let dst : SideRule := if c.fn = 4 then s.arithRule c else s.destRule c
  let snaps := c.fn == 1 || (c.fn == 4 && arTee (c.e 44))
  match s.pieces (s.sourceRule c) c.ra c.sstr 1 rows 0 with
  | .error x => .error x
  | .ok src =>
    if c.dkind ≠ 0 then
      match s.pushArrival c with
      | .error x => .error x
      | .ok arr => .ok { box with src := src, arrive := arr }
    else match s.pieces dst c.rb c.dstr c.spread rows 0 with
      | .error x => .error x
      | .ok ps =>
        match if snaps then s.pieces (s.snapRule c) (BitVec.ofNat 64 (c.e 45 % 2 ^ 48)) c.dstr c.spread rows 0 else .ok [] with
        | .error x => .error x
        | .ok sn =>
          match s.pushArrival c with
          | .error x => .error x
          | .ok arr =>
            let key := c.keys.getD b (0, 0, false)
            .ok { box with src := src, pieces := ps, snap := sn, arrive := arr, bank := key.1, seq := key.2.1, last := key.2.2 }

/-- Files a box and sends it on. -/
def State.emit (s : State) (b : Box) : State :=
  let id := s.fresh
  { s.bumpId with boxes := s.boxes ++ [{ b with id := id }] }.forward id

/-- The next box is looked at. -/
def State.nextBox (s : State) (c : Cmd) : State :=
  (s.modCmd c.id (fun x => { x with next := c.next + 1 })).push (.engineBoxIssue c.core c.queue)

/-- Begins a box of a push or of destination arithmetic: the source is read, and the box sent. -/
def State.beginPush (s : State) (c : Cmd) : State :=
  let b := c.next
  if c.isOpen then
    let k := c.banks.getD b (0, 0, 0)
    (s.emit { id := 0, cmd := c.id, who := c.who, core := c.core, asid := c.asid, fn := 4, num := b, e44 := c.e 44,
              bank := k.1, pieces := [{ va := k.2.2, spa := k.2.1, off := 0, len := 1 }] }).nextBox c
  else match s.makeBox c b with
    | .error x => ((s.fail c.id b 0 x.1 x.2).settle c.id b).nextBox c
    | .ok box =>
      if box.src.any (s.pieceWaits false) || s.storesInto c box.src then
        (s.askChunks box.src).after (acNs 64) (.engineBoxIssue c.core c.queue)
      else match box.src.find? (fun p => s.pieceCode c.asid false p != 0) with
        | some p => (((s.fail c.id b 0 (s.pieceCode c.asid false p) p.va).settle c.id b).nextBox c).pieceReport p
        | none =>
          let data := s.sourceBytes box
          let s := box.src.foldl (fun s p => s.chargeBytes c.who.task (s.home p.spa) p.len) s
          (s.emit { box with data := data }).nextBox c

/-- Begins a box of a directed read: the owner side is translated, and each recipient's part is asked of the owner. -/
def State.beginRead (s : State) (c : Cmd) : State :=
  let b := c.next
  let i := c.entryOf b
  let part := if c.fn = 3 then b % c.perItem else b
  let base := if c.fn = 3 then BitVec.ofNat 64 ((c.entries[i]?).map (·.owner) |>.getD 0) else c.ra
  let last := part + 1 = c.perItem
  let whole := if c.fn = 3 then 1 + i else 0
  match s.pieces (s.ownerRule c) base c.sstr 1 (c.rows part) 0 with
  | .error x => ((s.fail c.id b whole x.1 x.2).settle c.id b).nextBox c
  | .ok src =>
    if s.storesInto c src then s.after (acNs 64) (.engineBoxIssue c.core c.queue)
    else
    let one := fun (s : State) (item r : Nat) =>
      let id := s.fresh
      let box : Box := { id := id, cmd := c.id, who := c.who, core := c.core, asid := c.asid, fn := c.fn, num := b,
                         item := item, recip := c.recipients.getD r 0, src := src, last := last }
      let s := { s.bumpId with boxes := s.boxes ++ [box] }
      match src.find? (fun p => (s.home p.spa).outside) with
      | some p => s.sendPacket { s.packetFor p.spa (.request id) with flow := s.engineFlow box }
      | none => s.push (.directedReadOwner id)
    if c.fn = 3 then (one s i ((c.entries[i]?).map (·.recip) |>.getD 0)).nextBox c
    else
      let rs := (List.range c.nrec).filter (fun r => !c.stopped.contains (1 + r))
      if rs.isEmpty then (s.settle c.id b).nextBox c else (rs.foldl (fun s r => one s r r) s).nextBox c

/-- One move of an engine for the command at the head of a queue (R296, R308, R328, R329). -/
def State.engineMove (s : State) (c : Cmd) : State :=
  let again := Event.engineBoxIssue c.core c.queue
  let waits := c.waits.any (fun n => (s.coreAt c.core).mat.queue.any (fun x => x.id == n))
  let entryStopped := c.fn = 3 ∧ c.stopped.contains (1 + c.entryOf c.next)
  if c.cancelled then if c.fn = 3 ∧ !c.prepared ∧ (s.tableWaits c).isEmpty then (s.prepare c).push again else s.tryFinish c
  else if (s.taskAt c.who.task).saving.isSome then s
  else if c.set.isNone && s.translationHeld c.asid then s.after (acNs 16) again
  else if !c.prepared then
    if (s.tableWaits c).isEmpty then (s.prepare c).push again else (s.askChunks (s.tableWaits c)).after (acNs 64) again
  else if waits then s.after (acNs 16) again
  else if c.nbox ≤ c.next || c.stopped.contains 0 then s.tryFinish c
  else if c.settled.contains c.next || s.boxes.any (fun b => b.cmd == c.id && b.num == c.next) then s.nextBox c
  else if entryStopped then (s.settle c.id c.next).nextBox c
  else if c.floor + 64 ≤ c.next then s
  else if c.fn = 2 ∨ c.fn = 3 then s.beginRead c
  else s.beginPush c

/-- The engine of a queue begins its next box (R295). Join entries at the head are passed once they are resolved
(13_consistency R339). -/
def execEngineBoxIssue (core queue : Nat) (s : State) : Out :=
  let q := (FMap.get [] (s.coreAt core).queues queue).dropWhile (fun e =>
    match e with
    | .join id => !s.joinOpen id
    | .cmd id => (s.findCmd id).isNone)
  let s := s.modCore core (fun c => { c with queues := FMap.set queue q c.queues })
  match q with
  | [] => .next s
  | .join _ :: _ => .next (s.after (acNs 16) (.engineBoxIssue core queue))
  | .cmd id :: _ =>
    match s.findCmd id with
    | some c => .next (s.engineMove c)
    | none => .next s

/-! ## Directed reads (R313 to R315) -/

/-- The owner side of a `DGET` has failed at a lower box: no recipient is written any more (R315). -/
def State.cutOff (s : State) (b : Box) : Bool := (s.findCmd b.cmd).any (fun c => c.cut.any (fun n => decide (n < b.num)))

/-- The owner side of a box fails: the code goes to every recipient of it (Table 12-16). -/
def State.ownerOut (s : State) (b : Box) (code va : Nat) : State :=
  (s.modCmd b.cmd (fun c => { c with cut := if b.fn = 2 then some (min b.num (c.cut.getD b.num)) else c.cut })).boxOut
    b.id code va true

/-- The owner die reads its box and sends it on (R313 step 2); an owner in another package sends it from there. -/
def execDirectedReadOwner (box : Nat) (s : State) : Out :=
  match s.findBox box with
  | none => .next s
  | some b =>
    if s.cutOff b then .next (s.push (.boxAck box))
    else if b.src.any (s.pieceWaits false) then .next ((s.askChunks b.src).after (acNs 64) (.directedReadOwner box))
    else match b.src.find? (fun p => s.pieceCode b.asid false p != 0) with
      | some p => .next ((s.ownerOut b (s.pieceCode b.asid false p) p.va).pieceReport p)
      | none =>
        let data := s.sourceBytes b
        let s := b.src.foldl (fun s p => s.chargeBytes b.who.task (s.home p.spa) p.len) s
        let s := s.modBox box (fun b => { b with data := data })
        .next (if b.src.any (fun p => (s.home p.spa).outside) then s.push (.directedReadDelivery box) else s.forward box)

/-- The recipient side of a box: DACC, for the arrival word and tags also W, and across address spaces the peer check
(R314). -/
def Box.rasid (b : Box) : Nat := fieldAt b.recip 116 10
def Cmd.recipSet (c : Cmd) (b : Box) : Option (List Range) := if b.rasid = b.asid then c.set else none
def Box.recipRule (b : Box) (c : Cmd) (w : Bool) : SideRule :=
  { die := fieldAt b.recip 112 4, asid := b.rasid,
    rights := fun e => e.dacc && (!w || e.w) && (b.rasid == b.asid || (e.peeren && e.peer == b.asid)),
    home := fun _ h => !w || h.win == .lm || h.win == .dram, writes := true, noEntry := 0x0B, noRight := 0x0C,
    set := c.recipSet b }

/-- A claim at a receive buffer's header (R311): the CLAIM field with the base of the slot and the tag word, or what was
claimed at the item's first box: base, tag word and slot, as one number. -/
def State.claimSlot (s : State) (c : Cmd) (b : Box) : Except (Nat × Nat) (Option Piece × Nat × Nat) :=
  match FMap.find c.claims b.item with
  | some n => .ok (none, n % 2 ^ 64, n / 2 ^ 64 % 2 ^ 48)
  | none =>
    let va := b.recip % 2 ^ 48
    let u : SideRule := { b.recipRule c false with home := fun _ h => h.win == .lm || h.win == .dram }
    match s.engineRead u b.asid (BitVec.ofNat 64 va) 64 with
    | .error x => .error x
    | .ok (a, bs) =>
      let ecg := ((s.sideTranslate u va 64).map (fun e => e.1.ecg)).getD 0
      let h := leNat bs
      let sz := fieldAt h 64 32
      let claim := h % 2 ^ 32
      if va % 64 ≠ 0 ∨ fieldAt h 240 272 ≠ 0 ∨ fieldAt h 176 16 ≠ 0 ∨ fieldAt h 96 32 ≠ 0 ∨ sz = 0 ∨ sz % 8 ≠ 0 then
        .error (1, va)
      else if sz < c.rlen * c.nrow then .error (0x0A, va)
      else if fieldAt h 32 32 ≤ claim then .error (8, va)
      else .ok (some { va := va, spa := a, off := 0, len := 4, ecg := ecg }, fieldAt h 128 48 + claim * sz, fieldAt h 192 48 + 8 * claim)

/-- The recipient's pieces, arrival word and tag word. -/
def State.recipSide (s : State) (c : Cmd) (b : Box) (base tagVa : Nat) :
    Except (Nat × Nat) (List Piece × Option Piece × Option Piece) :=
  let part := if c.fn = 3 then b.num % c.perItem else b.num
  let stride := if bitAt b.recip 62 then BitVec.ofNat 64 c.rlen else c.dstr
  match s.pieces (b.recipRule c false) (BitVec.ofNat 64 base) stride 1 (c.rows part) 0 with
  | .error x => .error x
  | .ok ps =>
    match s.arrival (b.recipRule c true) (fieldAt b.recip 64 48) with
    | .error x => .error x
    | .ok arr =>
      if !bitAt b.recip 62 then .ok (ps, arr, none)
      else match s.sideWord (b.recipRule c true) tagVa with
        | .error x => .error x
        | .ok tag => .ok (ps, arr, some tag)

/-- The header of a receive buffer that cannot be read now. -/
def State.headerWaits (s : State) (c : Cmd) (b : Box) : List Piece :=
  if (FMap.find c.claims b.item).isSome then []
  else s.engineWaits { b.recipRule c false with home := fun _ h => h.win == .lm || h.win == .dram }
    (BitVec.ofNat 64 (b.recip % 2 ^ 48)) 64

/-- The codes with which a recipient in another package may answer a box (Tables 8-7 and 12-16): 0 for performed; a buffer
without a slot or with too short ones only at the first box of an item. -/
def recipientCodes (buffer begun : Bool) : List Nat :=
  [0, 0x01, 0x02, 0x03, 0x04, 0x05, 0x06, 0x0B, 0x0C] ++ if buffer && !begun then [0x08, 0x0A] else []

/-- One of the codes with which a place in another package may answer: what stands there is open. -/
def State.awayCode (s : State) (codes : List Nat) (tag : Nat) : Nat :=
  codes.getD (Config.freeCode s.freeCtr tag % codes.length) 0

/-- A box reaches a recipient, in box order (R313 steps 3 and 4). A DIE of 14 or 15 is an access fault (00_scope R1); for
one that names no compute die, 12 or 13, Table 12-16 has no row, and the model answers RTRANSLATION (log entry 111). New
translations of an address space that a range commit holds wait (04_placement R93). -/
def execDirectedReadDelivery (box : Nat) (s : State) : Out :=
  match s.findBox box with
  | none => .next s
  | some b =>
    let again := Event.directedReadDelivery box
    match s.findCmd b.cmd with
    | none => .next (s.push (.boxAck box))
    | some c =>
      let die := fieldAt b.recip 112 4
      if s.boxes.any (fun x => x.cmd == b.cmd && x.recip == b.recip && (c.fn == 3 || x.item == b.item) && x.num < b.num) then
        .next (s.after (acNs 16) again)
      else if c.stopped.contains (1 + b.item) || s.cutOff b then .next (s.push (.boxAck box))
      else if 14 ≤ die then .next (s.boxOut box 1 (b.recip % 2 ^ 48) false)
      else if (s.boxAway b).isSome then
        .next (s.boxOut box (s.awayCode (recipientCodes (bitAt b.recip 62) ((FMap.find c.claims b.item).isSome)) box)
          (b.recip % 2 ^ 48) false)
      else if (c.recipSet b).isNone && s.translationHeld b.rasid then .next (s.after (acNs 16) again)
      else if s.dieCode die ≠ 0 then .next (s.boxOut box (s.dieCode die) (b.recip % 2 ^ 48) false)
      else if (s.dieAt die).lost then .next (s.after (acNs 64) again)
      else if bitAt b.recip 62 ∧ !(s.headerWaits c b).isEmpty then
        .next ((s.askChunks (s.headerWaits c b)).after (acNs 64) again)
      else
        let claim := if bitAt b.recip 62 then s.claimSlot c b else .ok (none, b.recip % 2 ^ 48, 0)
        match claim with
        | .error x => .next (s.boxOut box x.1 x.2 false)
        | .ok (hdr, base, tagVa) =>
          match s.recipSide c b base tagVa with
          | .error x => .next (s.boxOut box x.1 x.2 false)
          | .ok (ps, arr, tag) =>
            let b := { b with arrive := arr }
            let ps := b.left ps
            .next (s.land b ps (hdr.toList ++ (if b.last then tag.toList else [])) again (fun s =>
              let s := match hdr with
                | some p =>
                  let s := s.chargeBytes b.who.task (s.home p.spa) 64
                  let slot := (s.under (s.home p.spa) 4).loadNat (s.home p.spa).key 4
                  let mark := base % 2 ^ 64 + tagVa % 2 ^ 48 * 2 ^ 64 + slot * 2 ^ 112
                  (s.putSide box p (leBytes 4 (slot + 1))).modCmd c.id (fun c =>
                    { c with claims := FMap.set b.item mark c.claims })
                | none => s
              let s := s.putAll b ps b.data
              match if b.last then tag else none with
              | some p => s.postWord box p (fun _ => ((c.entries[b.item]?).map (·.tag)).getD 0)
              | none => s))

/-! ## Destination arithmetic (R316 to R321) -/

def arFmt (ty : Nat) : Nat := match ty with | 0 => 1 | 1 => 3 | _ => 2

/-- One element combined: the new value and flags. -/
def arCombine (op ty old x : Nat) : Nat × Nat :=
  if 3 ≤ ty then
    let w := if ty = 3 then 32 else 64
    let a := sext64 (old % 2 ^ w) w
    let b := sext64 (x % 2 ^ w) w
    (match op with
      | 0 => (old + x) % 2 ^ w
      | 1 => (minS a b).toNat % 2 ^ w
      | _ => (maxS a b).toNat % 2 ^ w, 0)
  else
    let f := fmtOf (arFmt ty)
    match op with
    | 0 => f.addBits 0 old x
    | 1 => f.minMaxNum false old x
    | _ => f.minMaxNum true old x

/-- The new bytes of a destination piece and the flags raised: `old` its bytes, `data` the packet's elements for it. -/
def arApply (e44 : Nat) (old data : List Byte) : List Byte × Nat :=
  let z := arBytes e44
  (List.range (data.length / z)).foldl (fun (r : List Byte × Nat) i =>
    let x := leNat ((data.drop (z * i)).take z)
    if arOp e44 = 3 then
      let cell := leNat ((r.1.drop (64 * i)).take 48)
      let f := arFmt (arType e44)
      (splice r.1 (64 * i) (leBytes 48 (cellAdd f cell x)), r.2 ||| (if (fmtOf f).isSnan x then 16 else 0))
    else
      let o := leNat ((r.1.drop (z * i)).take z)
      let v := arCombine (arOp e44) (arType e44) o x
      (splice r.1 (z * i) (leBytes z v.1), r.2 ||| v.2)) (old, 0)

/-- The packet's bytes for a destination piece. -/
def Box.dataFor (b : Box) (p : Piece) : List Byte :=
  let f := if arOp b.e44 = 3 then 64 / arBytes b.e44 else 1
  (b.data.drop p.off).take (p.len / f)

/-- The last source's packet is teed to the snapshot (R321). -/
def Box.tees (b : Box) : Bool := arTee b.e44 && arSrc b.e44 == arNsrcM1 b.e44

/-- A packet waits for its destination. -/
def State.packetWaits (s : State) (b : Box) : Bool := (b.pieces ++ if b.tees then b.snap else []).any (s.pieceWaits true)

/-- A packet is applied to memory, or refused as a whole. -/
def State.applyPacket (s : State) (b : Box) : State :=
  let b' : Box := if b.tees then b else { b with snap := [] }
  match b.pieces.find? (fun p => s.pieceCode b.asid false p != 0) with
  | some p => (s.boxOut b.id (s.pieceCode b.asid false p) p.va false).pieceReport p
  | none =>
    s.land b' b.pieces [] (.darithPacketApply b.id) (fun s =>
      let fin := (b.pieces.zip (b'.snap.map some ++ List.replicate b.pieces.length none)).foldl
        (fun (r : State × Nat) (p : Piece × Option Piece) =>
          let s := r.1
          let v := arApply b.e44 (s.pieceBytes p.1) (b.dataFor p.1)
          let s := (s.chargeBytes b.who.task (s.home p.1.spa) p.1.len).putPiece b.id p.1 v.1
          let s := match p.2 with
            | some q => (s.chargeBytes b.who.task (s.home q.spa) q.len).putPiece b.id q v.1
            | none => s
          (s, r.2 ||| v.2)) (s, 0)
      fin.1.modBox b.id (fun x => { x with flags := fin.2 }))

/-- A packet in arrival mode (R317). -/
def execDarithPacketApply (box : Nat) (s : State) : Out :=
  match s.findBox box with
  | none => .next s
  | some b => .next (s.applyPacket b)

/-- A key against the next key of a context: 0 equal, 1 above, 2 below (R318). -/
def keyAgainst (k n : Nat × Nat × Nat) : Nat :=
  let d := (k.1 + 65536 - n.1) % 65536
  if d ≠ 0 then if d < 32768 then 1 else 2
  else if k.2 = n.2 then 0
  else if n.2.1 < k.2.1 || (n.2.1 == k.2.1 && n.2.2 < k.2.2) then 1 else 2

def Box.key (b : Box) : Nat × Nat × Nat := (arRound b.e44, arSrc b.e44, b.seq)

/-- The key after a packet has been applied. -/
def Box.nextKey (b : Box) : Nat × Nat × Nat :=
  if !b.last then (arRound b.e44, arSrc b.e44, b.seq + 1)
  else if arSrc b.e44 < arNsrcM1 b.e44 then (arRound b.e44, arSrc b.e44 + 1, 0)
  else ((arRound b.e44 + 1) % 65536, 0, 0)

/-- Banks are found by the die that holds them. -/
def bankDie (bank : Nat) : Nat := if bank < 8192 then bank / 512 else (bank - 8192) / 16
def State.bankAt (s : State) (bank : Nat) : Bank := FMap.get {} (s.dieAt (bankDie bank)).banks bank
def State.modBank (s : State) (bank : Nat) (f : Bank → Bank) : State :=
  s.modDie (bankDie bank) (fun d => { d with banks := FMap.set bank (f (FMap.get {} d.banks bank)) d.banks })

def Bank.nextOf (k : Bank) (tag : Nat) : Option (Nat × Nat × Nat) := (FMap.get {} k.ctx tag).key

/-- The buffered packets of a context. -/
def State.bufferedIn (s : State) (bank tag : Nat) : List Box :=
  s.boxes.filter (fun b => (s.bankAt bank).buf.contains b.id && arTag b.e44 == tag)

/-- Applies the packet at the next key, then buffered packets that have become next (R318). A packet whose destination
waits for a rebuild keeps its place. -/
def State.bankRun : Nat → Nat → Box → State → State
  | 0, _, _, s => s
  | n + 1, bank, b, s =>
    if s.packetWaits b then
      let s := if (s.bankAt bank).buf.contains b.id then s
        else s.modBank bank (fun k => { k with buf := k.buf ++ [b.id] })
      (s.askChunks b.pieces).after (acNs 64) (.orderedPacketArrival b.id)
    else
      let s := (s.modBank bank (fun k => { k with
        buf := k.buf.filter (fun x => x != b.id),
        ctx := FMap.set (arTag b.e44) { key := some b.nextKey } k.ctx })).applyPacket b
      match (s.bufferedIn bank (arTag b.e44)).find? (fun x => x.key == b.nextKey) with
      | some x => State.bankRun n bank x s
      | none => s

/-- A packet is dropped as a duplicate. -/
def State.dropPacket (s : State) (id : Nat) : State := (s.modBox id (fun b => { b with dup := true })).push (.boxAck id)

/-- An OPEN of the packet's context reaches the bank in the same cycle: it goes first (R318). -/
def State.openDue (s : State) (b : Box) : Bool :=
  s.agenda.any (fun e =>
    match e with
    | .darithOpenPacket id => (s.findBox id).any (fun o => o.bank == b.bank && arTag o.e44 == arTag b.e44 &&
        !(o.pieces.any (fun p => (s.home p.spa).outside)))
    | _ => false)

/-- An ORDERED packet for a bank in another package: applied, dropped or buffered there, as what stands in that bank, which
is open, has it; a buffered one is answered a second time later (R320). -/
def State.orderedAway (s : State) (b : Box) : State :=
  let code := match b.pieces with
    | p :: _ => s.packetCode p.spa b.id
    | [] => 0
  let f := Config.freeCode s.freeCtr (b.id + 1)
  if code ≠ 0 then s.boxOut b.id code (s.boxVa b) false
  else if f % 3 = 0 then s.applyPacket b
  else if f % 3 = 1 then s.dropPacket b.id
  else
    let s := (s.modBox b.id (fun b => { b with held := true })).after (f / 3) (.orderedPacketArrival b.id)
    match s.findOwn b.cmd with
    | some c => s.push (.engineBoxIssue c.core c.queue)
    | none => s

/-- An ORDERED packet reaches its bank (R318): applied, buffered, sent again later, or dropped. -/
def State.orderedArrive (s : State) (box : Nat) : State :=
  match s.findBox box with
  | none => s
  | some b =>
    let k := s.bankAt b.bank
    let here := k.buf.contains box
    let first := (b.pieces.head?.map (fun p => s.home p.spa))
    if first.any (fun h => h.outside) then s.orderedAway b
    else if s.dieCode (bankDie b.bank) ≠ 0 then
      (s.modBank b.bank (fun k => { k with buf := k.buf.erase box })).boxOut box (s.dieCode (bankDie b.bank)) (s.boxVa b) false
    else if s.openDue b then s.push (.orderedPacketArrival box)
    else
      let rel := match k.nextOf (arTag b.e44) with
        | none => 1
        | some n => keyAgainst b.key n
      let twin := (s.bufferedIn b.bank (arTag b.e44)).any (fun x => x.id != box && x.key == b.key)
      if !here && (rel = 2 || twin) then s.dropPacket box
      else if rel = 0 then State.bankRun (k.buf.length + 1) b.bank b s
      else if here then s
      else if 64 ≤ k.buf.length then s.after (acNs 64) (.orderedPacketResend box)
      else (s.modBank b.bank (fun k => { k with buf := k.buf ++ [box] })).push (.orderedHeldAck box)

def execOrderedPacketArrival (box : Nat) (s : State) : Out := .next (s.orderedArrive box)

/-- A packet that found the buffer full is sent again (R318). -/
def execOrderedPacketResend (box : Nat) (s : State) : Out := .next (s.push (.orderedPacketArrival box))

/-- The held acknowledgement: the box counts as settled for a save or a cancel (R320). -/
def execOrderedHeldAck (box : Nat) (s : State) : Out :=
  match s.findBox box with
  | none => .next s
  | some b =>
    let held := (s.bankAt b.bank).buf.contains box
    let s := s.modBox box (fun b => { b with held := held })
    match s.findOwn b.cmd with
    | some c => .next (s.push (.engineBoxIssue c.core c.queue))
    | none => .next s

/-- OPEN at a bank: the context starts at (ROUND, 0, 0) and its buffered packets are dropped as duplicates (R318). -/
def execDarithOpenPacket (box : Nat) (s : State) : Out :=
  match s.findBox box with
  | none => .next s
  | some b =>
    let tag := arTag b.e44
    let away := b.pieces.find? (fun p => (s.home p.spa).outside)
    let code := match away with
      | some p => s.packetCode p.spa p.spa
      | none => s.dieCode (bankDie b.bank)
    if away.isSome && code == 0 then .next (s.push (.boxAck box))
    else if code ≠ 0 then .next (s.boxOut box code (s.boxVa b) false)
    else if (s.dieAt (bankDie b.bank)).lost then .next (s.after (acNs 64) (.darithOpenPacket box))
    else
      let old := s.bufferedIn b.bank tag
      let s := s.modBank b.bank (fun k => { k with
        buf := k.buf.filter (fun x => !(old.any (fun o => o.id == x))),
        ctx := FMap.set tag { key := some (arRound b.e44, 0, 0) } k.ctx })
      .next ((old.foldl (fun s o => s.dropPacket o.id) s).push (.boxAck box))

/-! ## Items for tasks (R309, 02_launch R46, R47, R439) -/

/-- Changes of a task's state that fall in the same cycle come before an item for it (02_launch R46). -/
def State.changesDue (s : State) : Bool :=
  s.agenda.any (fun e =>
    match e with
    | .rotationBoundary _ | .launchAdmission _ | .heldRecordRecheck _ | .preemptionSave _ | .preemptionRequest _
    | .taskRetirement _ | .swapOut _ | .swapIn _ | .stagingFetchComplete .. | .stagingFetchRetry .. | .gangSliceStart _
    | .gangSliceCancel _ | .gangSliceEnd _ | .gangLateMemberStart _ | .gangMembersSaved .. | .dispatchDecision ..
    | .preemptionDecision .. | .faultDecision .. | .release _ | .requeue _ | .kill _ | .domainRestoreComplete ..
    | .watchdogFire _ | .groupWatchdogFire .. | .pairItemCompare .. | .pairItemTimeout .. | .softError ..
    | .partitionConfigWrite .. | .controlRegisterWrite .. => true
    | _ => false)

/-- The codes with which the scheduler of another package may answer an item (02_launch R46, R47; Table 8-7): 0 for taken. -/
def itemCodes : List Nat := [0, 0x02, 0x03, 0x04, 0x05, 0x06, 0x09, 0x0A]

/-- A box of an item was performed: its arrival word rises, and it is acknowledged. -/
def State.itemDone (s : State) (b : Box) : State := (s.boxArrives b).boxDone b.id

/-- A box of an item reaches the scheduler. The fate of the item is fixed at its first box, as claim 0 of the command: 1
staged, 2 a duplicate, 3 refused, of which later boxes write nothing. The item is staged without a look at the room that the
partition's staging has (log entry 105). -/
def execTaskItemDelivery (box : Nat) (s : State) : Out :=
  match s.findBox box with
  | none => .next s
  | some b =>
    match s.findCmd b.cmd with
    | none => .next (s.push (.boxAck box))
    | some c =>
      let id := c.e 46 / 2 ^ 32
      let tidx := fieldAt (c.e 42) 16 9
      let x := if c.dkind = 1 then tidx % 16 else tidx / 32
      let r := tidx % 32
      let off := match c.rows b.num with
        | (row, col, _) :: _ => row * c.rlen + col
        | [] => 0
      let stage := fun (s : State) => (s.stageBox id x c.id b.num c.perItem off b.data).itemDone b
      let fate := fun (s : State) (n : Nat) => s.modCmd c.id (fun c => { c with claims := FMap.set 0 n c.claims })
      let away := (s.boxAway b).isSome
      if !away && s.changesDue then .next (s.push (.taskItemDelivery box))
      else match b.arrive.toList.find? (fun p => s.pieceCode b.asid true p != 0) with
      | some p => .next (s.boxOut box (s.pieceCode b.asid true p) p.va false)
      | none =>
      if b.arrive.any (s.pieceWaits true) then
        .next ((s.askChunks b.arrive.toList).after (acNs 64) (.taskItemDelivery box))
      else match FMap.find c.claims 0 with
        | some 1 => .next (if away then s.itemDone b else stage s)
        | some 2 => .next (s.dropPacket box)
        | some _ => .next (s.push (.boxAck box))
        | none =>
          if away then
            let code := s.awayCode itemCodes box
            .next (if code ≠ 0 then (fate s 3).boxOut box code (s.freeAddr box) false
              else if Config.freeCode s.freeCtr (box + 1) % 2 = 1 then (fate s 2).dropPacket box
              else (fate s 1).itemDone b)
          else match s.itemFate id c.dkind x r (c.rlen * c.nrow) with
          | .refused code => .next ((fate s 3).boxOut box code (s.freeAddr box) false)
          | .duplicate => .next ((fate s 2).dropPacket box)
          | .staged =>
            let s := (fate s 1).modStaged id x (fun g => { item := some (c.id, []), spa := g.spa })
            .next (stage ((s.placeInput id x).getD s))
          | .image => .next ((s.modTask id (fun t =>
              { t with image := t.image ++ (itemWords r b.data).map (fun w => (x, w.1, w.2)) })).itemDone b)
          | .saved => .next ((s.modTask id (fun t => { t with saves := t.saves.map (fun a =>
              if a.j = x then { a with input := (itemWords r b.data).foldl (fun m w => FMap.set w.1 w.2 m) a.input }
              else a) })).itemDone b)
          | .window =>
            let ks := s.slotsNamed id x
            match ks.find? (fun k => (itemWords r b.data).any (fun w => (s.slotAt k).windowBusy (regFin w.1))) with
            | some k => .next (s.boxWaits b (coreOfSlot k) (s.freeAddr box) (.taskItemDelivery box))
            | none => .next ((s.modSlots ks (fun y =>
              (itemWords r b.data).foldl (fun y w => y.windowWrite (regFin w.1) w.2) y)).itemDone b)

end Machine
end Sys2Proof
end

