-- ==== Sys2Proof/Machine/Create.lean ====
section
/-!
DEFINITION. The creation of tasks (01_work R11 to R20; 02_launch R42, R45; 06_scalar R157 to R160): declaration blocks and
their checks, arrival triggers, `SPAWN`, and the end of a slot's part in its task by `TDONE`.
-/
namespace Sys2Proof
namespace Machine

/-! ## Blocks and tile lists (Tables 1-1, 1-2) -/

/-- The declaration that a block of 512 bits holds. -/
def declOf (d : Nat) : Decl :=
  { tcount := fieldAt d 496 16, trigger := fieldAt d 448 48, energy := fieldAt d 384 32,
    arg := BitVec.ofNat 64 (fieldAt d 320 64), tstamp := fieldAt d 256 64, domain := fieldAt d 224 16,
    kind := fieldAt d 222 2, queue := fieldAt d 218 4, level := fieldAt d 215 3, gang := fieldAt d 205 10,
    slots := fieldAt d 192 5, nout := fieldAt d 180 4, nin := fieldAt d 176 4, tiles := fieldAt d 128 48,
    codelen := fieldAt d 112 16, codebase := fieldAt d 64 48, entry := fieldAt d 0 48 }

def declReserved (d : Nat) : Bool :=
  fieldAt d 416 32 != 0 || fieldAt d 240 16 != 0 || fieldAt d 197 8 != 0 || fieldAt d 184 8 != 0 || fieldAt d 48 16 != 0

def tileOf (n : Nat) : Tile :=
  { fetch := bitAt n 107, place := fieldAt n 105 2, offset := fieldAt n 84 20, length := fieldAt n 64 20, addr := fieldAt n 0 48 }

def tileReserved (n : Nat) : Bool := fieldAt n 108 20 != 0 || bitAt n 104 || fieldAt n 48 16 != 0

/-- The entries of a tile list: numbers of 128 bits. -/
def tilesOf (n count : Nat) : List Nat := (List.range count).map (fun i => n / 2 ^ (128 * i) % 2 ^ 128)

/-! ## Coverage by ranges -/

/-- Bytes `v` to `v + n - 1` lie wholly in ranges of the address space that grant a right. -/
def State.covered (s : State) (die asid v n : Nat) (ok : Range → Bool) : Bool :=
  let es := (s.rangesOf die asid).filter ok
  n != 0 && (List.range ((v + n - 1) / 65536 - v / 65536 + 1)).all (fun i =>
    es.any (fun e => e.base ≤ v / 65536 + i && v / 65536 + i ≤ e.limit))

/-! ## Declaration checks (Table 1-3) -/

/-- What the checks ask of a creator: partition, address space, job, point, level index, and its open domains with the
innermost of them. -/
structure Creator where
  part : Nat
  asid : Nat
  job : Nat
  point : Nat
  levels : List Nat
  diemask : Nat
  level : Nat
  chain : List Nat
  inner : Nat

/-- Cores in one instance of a hardware domain around a core (Table 1-4). -/
def instanceCores (code p : Nat) : Nat :=
  if code ≤ 1 then 1 else if code = 2 then 8 else if code = 3 then Config.coresOf (dieOfCore p)
  else if code = 4 then 5632 else 8 * 5632

/-- The level of an open domain of a job. -/
def State.domainLevel (s : State) (job id : Nat) : Nat := ((s.findDomain job id).map (·.level)).getD 0

/-- The domain that a declaration joins (R19). -/
def Decl.joins (d : Decl) (c : Creator) : Nat := if d.domain = 0 then c.inner else d.domain

/-- The head of the ordered set that a task of domain `dom` at `point` joins (R20, R21). -/
def State.setHead (s : State) (job dom point : Nat) : Option Task :=
  s.tasks.find? (fun t => t.ordered && t.job == job && t.domain == dom && dieOfCore t.point == dieOfCore point &&
    t.uncommitted && s.isHead t)

/-- Two stretches overlap. -/
def spansMeet (a n b m : Nat) : Bool := a < b + m && b < a + n

/-- Input tiles of local memory that overlap, or that run past its end (check 8). -/
def lmTilesBad : List Tile → Bool
  | [] => false
  | t :: ts => Config.lmBytes < t.offset + t.length || ts.any (fun u => spansMeet t.offset t.length u.offset u.length) || lmTilesBad ts

/-- The number of the first check of Table 1-3 that fails, 0 for none. `d` is the block, `raw` its tile entries. -/
def State.declCheck (s : State) (c : Creator) (d : Nat) (raw : List Nat) : Nat :=
  let b := declOf d
  let ins := (raw.take b.nin).map tileOf
  let outs := (raw.drop b.nin).map tileOf
  let code := c.levels[b.level]?
  let die := dieOfCore c.point
  if declReserved d || raw.any tileReserved || b.kind == 3 || (ins ++ outs).any (fun t => t.place == 3) ||
      (b.kind != 2 && (b.trigger != 0 || b.tcount != 0)) || ins.any (fun t => t.place == 2 || (!t.fetch && t.addr != 0)) ||
      outs.any (fun t => t.fetch || t.place != 2 || t.offset != 0) then 1
  else if b.slots = 0 || 16 < b.slots || b.gang = 0 then 2
  else if code.any (fun k => instanceCores k c.point < b.gang || (k == 0 && (b.slots != 1 || b.gang != 1))) then 3
  else if (s.partAt c.part).cfg.used.qcount ≤ b.queue then 4
  else if code.isNone || b.level < c.level then 5
  else if 8 < b.nin || 8 < b.nout then 6
  else if (ins ++ outs).any (fun t => t.length == 0 || t.length % 8 != 0 || 262144 < t.length || t.addr % 8 != 0 ||
      (t.place == 0 && t.offset % 8 != 0)) || b.tiles % 16 != 0 then 7
  else if lmTilesBad (ins.filter (fun t => t.place == 0)) then 8
  else if ins.any (fun t => t.place == 1 && (t.offset / 512 != 0 || b.slots ≤ t.offset / 32 || t.offset % 32 < 4 ||
      32 < t.offset % 32 + t.length / 8)) then 9
  else if b.codebase % 256 != 0 || b.entry % 4 != 0 || b.entry < b.codebase || b.codebase + 256 * b.codelen ≤ b.entry ||
      !s.covered die c.asid b.codebase (256 * b.codelen) (fun e => e.x) then 10
  else if ins.any (fun t => t.fetch && !s.covered die c.asid t.addr t.length (fun e => e.r)) then 11
  else if (b.domain != 0 && !c.chain.contains b.domain) || b.level < s.domainLevel c.job (b.joins c) then 12
  else if b.kind = 1 && (code.any (fun k => 3 < k) ||
      (s.setHead c.job (b.joins c) c.point).any (fun h => b.tstamp < h.decl.tstamp)) then 13
  else if b.kind = 2 && (b.trigger = 0 || b.trigger % 8 ≠ 0) then 14
  else 0

/-! ## Creation (R42, R45) -/

/-- A domain and those around it, the innermost first. -/
def State.chainOf (s : State) (job : Nat) : Nat → Nat → List Nat
  | 0, id => [id]
  | n + 1, id =>
    match (s.findDomain job id).bind (·.parent) with
    | some p => id :: s.chainOf job n p
    | none => [id]

/-- The next sequence number of a partition that no task holds. -/
def State.freeSeq (s : State) (part : Nat) : Nat → Nat → Nat
  | 0, q => q
  | n + 1, q => if (s.findTask (part * 2 ^ 26 + q)).isSome then s.freeSeq part n ((q + 1) % 2 ^ 26) else q

/-- Registers an arrival trigger at the home of its word (R45): a word that has reached TCOUNT fires at once. A word
that does not translate is never seen to be written; when a word of another package fires is free, and the task asks for it
until then (log entry 104). -/
def State.registerTrigger (s : State) (t : Task) : State :=
  match s.translate (dieOfCore t.point) t.asid t.decl.trigger 8 with
  | none => s
  | some (_, a) =>
    let h := s.home a
    if h.outside then s.push (.stagingFetchComplete t.id t.decl.nin)
    else (s.modPkg (fun p => { p with triggers := p.triggers ++ [(h.key + (if h.win = .dram then 2 ^ 64 * h.cipher else 0), t.decl.tcount, t.id)] })).fireTriggers

/-- Creates one task: in QUEUED, or DECLARED with its trigger registered. -/
def State.createTask (s : State) (c : Creator) (b : Decl) (raw : List Nat) (launch : Option (Nat × Nat))
    (parent : Option Nat) (spec : Bool) : State × Nat :=
  let p := s.partAt c.part
  let q := s.freeSeq c.part 4096 (p.seq % 2 ^ 26)
  let id := c.part * 2 ^ 26 + q
  let dom := b.joins c
  let t : Task :=
    { id := id, decl := b, tilesIn := (raw.take b.nin).map tileOf, tilesOut := (raw.drop b.nin).map tileOf, part := c.part,
      asid := c.asid, job := c.job, point := c.point, levels := c.levels, diemask := c.diemask, domain := dom, chain := s.chainOf c.job 8 dom, launch := launch,
      parent := parent, seq := p.ordSeq, specChild := spec }
  let s := s.modPart c.part (fun p => { p with
    seq := (q + 1) % 2 ^ 26, ordSeq := if b.kind = 1 then (p.ordSeq + 1) % 2 ^ 32 else p.ordSeq })
  let s := { s with tasks := s.tasks ++ [t] }
  (if b.kind = 2 then s.registerTrigger t else s.enqueue id, id)

/-- Tasks of a partition that have not retired. -/
def State.liveTasks (s : State) (part : Nat) : Nat := s.tasks.countP (fun t => t.part == part)

/-! ## SPAWN (06_scalar R157, R158; 02_launch R44) -/

/-- The creator that a running task is. -/
def Task.creator (t : Task) (point : Nat) : Creator :=
  { part := t.part, asid := t.asid, job := t.job, point := point,
    levels := t.levels, diemask := t.diemask, level := t.decl.level, chain := t.chain,
    inner := t.chain.headD 0 }

/-- A speculative task may spawn an ordered task of its own set that does not come before it (01_work R23). -/
def sameSetNotEarlier (t : Task) (c : Creator) (d : Nat) : Bool :=
  let b := declOf d
  b.kind == 1 && (c.levels[b.level]?).any (fun k => k ≤ 3) && b.joins c == t.domain && t.ordered &&
    t.decl.tstamp ≤ b.tstamp

/-- Creates the child and retires. -/
def State.spawnNow (s : State) (t : Task) (c : Creator) (d : Nat) (raw : List Nat) (rd : Fin 32) : State :=
  let b := declOf d
  let spec := s.speculative s.cur
  let s := s.modPart t.part (fun p => { p with cfg := { p.cfg with energy := p.cfg.energy - b.energy } })
  let r := s.createTask c b raw none (some t.id) spec
  (r.1.setReg rd (BitVec.ofNat 64 r.2)).retire

/-- The tile list of a block, read as `LD` reads the words that hold it: its own alignment is check 7 (01_work R14). -/
def State.readTiles (s : State) (k : Nat) (b : Decl) : Got Nat :=
  let n := 16 * (b.nin + b.nout)
  let off := b.tiles % 8
  (s.readBlock k (BitVec.ofNat 64 (b.tiles - off)) (if n = 0 then 0 else (off + n + 7) / 8)).bind
    (fun s v => .ok s (v / 256 ^ off % 256 ^ n))

/-- `SPAWN` (R157): in this order the wait of a speculative task, the block, its tile list, the checks, the energy, the two
limits on tasks and triggers, and the release at the scope of the child's level (R158). -/
def execSpawn (d a : Fin 32) (s : State) : Out :=
  s.gated [(a, false)] d false (fun s =>
    let k := s.cur
    let t := s.slotTask k
    let c := t.creator (coreOfSlot k)
    let v := s.reg a
    let early : Bool := match s.readBlock k v 8 with
      | .ok _ n => sameSetNotEarlier t c n
      | _ => false
    if s.speculative k && !early then s.pause
    else if v.toNat % 64 ≠ 0 then s.trap 0x08 v
    else s.withGot (s.readBlock k v 8) (fun s n =>
      let b := declOf n
      s.withGot (s.readTiles k b) (fun s tl =>
        let raw := tilesOf tl (b.nin + b.nout)
        let check := s.declCheck c n raw
        if check ≠ 0 then s.trap 0x0F (BitVec.ofNat 64 check)
        else if (s.partAt t.part).cfg.energy = 0 ∨ (s.partAt t.part).cfg.energy < b.energy then s.trap 0x10 (BitVec.ofNat 64 b.energy)
        else if 4096 ≤ s.liveTasks t.part || 1024 ≤ s.pkg.triggers.length then s.bubble
        else
          let code := c.levels.getD b.level 0
          if s.speculative k then s.spawnNow t c n raw d
          else s.afterWriteBack (fun _ => 2 ≤ code) (fun s =>
            if s.postsLeft (fun _ _ => true) then s.stay else s.spawnNow t c n raw d))))

/-! ## TDONE (R159, R160) -/

/-- The slot's REFUSED journal entries are retired, each with a note (08_memory_ops R209). -/
def State.retireRefused (s : State) (k : Nat) : State :=
  let c := coreOfSlot k
  let t := s.slotTask k
  let mine := (s.coreAt c).journal.filter (fun e => e.2.slot == k && e.2.st != .sent)
  let s := mine.foldl (fun s (e : Nat × JEntry) =>
    match e.2.st with
    | .refused code => s.noteRefusal t (e.2.va.toNat % 2 ^ 48) code
    | .sent => s) s
  s.modCore c (fun c => { c with journal := c.journal.filter (fun e => !(e.2.slot == k && e.2.st != .sent)) })

/-- The groups of a task end (10_matrix R272); joins that are queued find none any more. -/
def State.endGroups (s : State) (id : Nat) : State :=
  let mine := s.groups.filter (fun g => g.task == id)
  { s with groups := s.groups.filter (fun g => g.task != id) }.pushAll (mine.map (fun (g : Group) => .mjoinComplete g.job g.gid))

/-- Every slot of the task has executed `TDONE`: it is DONE. -/
def State.tryDone (s : State) (id : Nat) : State :=
  let ks := s.slotsOf id
  if !ks.isEmpty && ks.all (fun k => (s.slotAt k).ended) then
    ((s.modTask id (fun t => { t with st := .done, saving := none })).endGroups id).tryCommit id
  else s

def execTdone (n : Fin 4096) (s : State) : Out :=
  s.gated [] 0 false (fun s =>
    let k := s.cur
    let id := (s.slotTask k).id
    let s := (s.retireRefused k).releaseClaim k
    let s := s.modTask id (fun t => { t with status := t.status ||| n.val })
    let finish : Slot → Slot := fun x => { (x.retire.setIntrap false) with ended := true, pend := [] }
    let s := (k :: (s.twin k).toList).foldl (fun s k => s.modSlot k finish) s
    s.tryDone id)

end Machine
end Sys2Proof
end

