-- ==== Sys2Proof/Machine/Domain.lean ====
section
/-!
DEFINITION. Containment domains (16_recovery R381 to R387, R390): opening with its preserve list, further preserves,
closing, and the end of a restore.
-/
namespace Sys2Proof
namespace Machine

/-! ## Preserve entries (Tables 16-3, 16-4) -/

def presReserved (e : Nat) : Bool := fieldAt e 96 32 != 0 || fieldAt e 48 15 != 0
def presVa (e : Nat) : Nat := fieldAt e 0 48
def presLen (e : Nat) : Nat := 64 * fieldAt e 64 32
def presLock (e : Nat) : Bool := bitAt e 63

/-- The range and SPA of an entry's bytes; none where they fail code 0x04. -/
def State.presPlace (s : State) (k e : Nat) : Option Nat :=
  match s.translate (dieOfSlot k) (s.asidOf k) (presVa e) (presLen e) with
  | some (r, a) =>
    let w := (s.home a).win
    if r.r && presVa e % 64 == 0 && (w == .lm || w == .dram) && (s.home (a + presLen e - 1)).win == w &&
        !(presLock e && r.ecg == 0) then some a else none
  | none => none

/-- What an entry takes of the preserve store. -/
def presBytes (es : List Nat) : Nat := (es.map (fun e => if presLock e then 0 else presLen e)).foldl (· + ·) 0

/-- Locked regions of the package. -/
def State.lockCount (s : State) : Nat := (s.domains.map (fun d => d.preserves.countP (fun p => p.lock))).foldl (· + ·) 0

/-- Codes 0x04 and 0x05 for a list of entries (R386). -/
def State.presCheck (s : State) (k : Nat) (es : List Nat) : Nat :=
  let p := s.partAt (s.slotTask k).part
  if es.any (fun e => (s.presPlace k e).isNone) then 4
  else if p.pquota < p.pused + presBytes es || 1024 < s.lockCount + es.countP presLock then 5
  else 0

/-- An entry as it is recorded: its SPA, and for COPY the bytes and full words that it holds (R386). -/
def State.preserveOf (s : State) (k e : Nat) : Preserve :=
  let a := (s.presPlace k e).getD 0
  let key := (s.home a).key
  let n := presLen e
  let group := ((s.translate (dieOfSlot k) (s.asidOf k) (presVa e) n).map (fun r => r.1.ecg)).getD 0
  if presLock e || (s.home a).outside then { lock := presLock e, spa := a, len := n, group := group }
  else
    { lock := false, spa := a, len := n, group := group, bytes := (s.under (s.home a) n).mem.filter (fun c => key ≤ c.1 && c.1 < key + n),
      full := s.full.filter (fun w => key ≤ 8 * w && 8 * w < key + n) }

/-- What a byte costs that goes into the preserve store, whose place in a C-die's or an H-die's DRAM is open (17_retire R408). -/
def storeCost (s : State) (spa : Nat) : Nat := if Config.freeCode s.freeCtr spa % 2 = 0 then 1300 else 4000

/-- A preserve takes effect entry by entry; its COPY bytes are charged, and count against the partition (R386). -/
def State.preserve (s : State) (k dom : Nat) (es : List Nat) : State :=
  let t := s.slotTask k
  let ps := es.map (s.preserveOf k)
  let s := ps.foldl (fun s p => if p.lock then s else (s.chargeBytes t.id (s.home p.spa) p.len).charge t.id (p.len * storeCost s p.spa)) s
  let s := s.modDomain t.job dom (fun d => { d with preserves := d.preserves ++ ps })
  s.modPart t.part (fun p => { p with pused := p.pused + presBytes es })

/-! ## CDOPEN, CDPRES, CDCLOSE -/

/-- A status of Table 16-4 as it is returned. -/
def domainStatus (code : Nat) : Word := if code = 0 then 0 else BitVec.ofNat 64 (2 ^ 63 + code)

/-- A list of entries read as by `LD`. -/
def State.readPres (s : State) (k va n : Nat) : Got Nat :=
  if n = 0 then .ok s 0
  else if va % 16 ≠ 0 then .trap ⟨0x08, BitVec.ofNat 64 va⟩
  else s.readBlock k (BitVec.ofNat 64 va) (2 * n)

/-- The first failing code of a domain descriptor (Table 16-4). -/
def State.openCheck (s : State) (k d : Nat) (es : List Nat) : Nat :=
  let t := s.slotTask k
  let level := fieldAt d 64 3
  let levels := t.levels
  if fieldAt d 224 288 != 0 || fieldAt d 184 8 != 0 || fieldAt d 67 61 != 0 || fieldAt d 48 16 == 0 ||
      fieldAt d 0 48 % 4 != 0 || !t.inCode (fieldAt d 0 48) || es.any (fun e => presReserved e || presLen e == 0) then 1
  else if levels.length ≤ level || level < t.decl.level || level ≤ s.domainLevel t.job (t.chain.headD 0) then 2
  else if (s.findDomain t.job (fieldAt d 48 16)).isSome then 3
  else s.presCheck k es

/-- Words of a preserve that hold an uncorrectable error keep the slot waiting for what the error leads to (R394). -/
def State.presBad (s : State) (k : Nat) (es : List Nat) : Option Nat :=
  (es.filterMap (s.presPlace k)).find? (fun a =>
    es.any (fun e => s.presPlace k e == some a && !presLock e && !(s.home a).outside && s.isBad (s.home a).key (presLen e)))

/-- The erasure-coding group of the range of a slot that covers an SPA. -/
def State.ecgOf (s : State) (k a : Nat) : Nat :=
  (((s.rangesOf (dieOfSlot k) (s.asidOf k)).find? (fun e =>
    e.phys * 65536 ≤ spaBits a && spaBits a < (e.phys + (e.limit + 1 - e.base)) * 65536)).map (·.ecg)).getD 0

/-- Acts on the entries unless the copy meets an uncorrectable error. -/
def State.withCopies (s : State) (k : Nat) (es : List Nat) (act : State → State) : State :=
  match s.presBad k es with
  | some a => s.bubble.eccFound (s.slotTask k).id (s.home a) a (s.ecgOf k a)
  | none => act s

/-- Opens the domain of a descriptor, nested in the innermost one of the task's chain (R385). -/
def State.openDomain (s : State) (k d : Nat) (es : List Nat) : State :=
  let t := s.slotTask k
  let id := fieldAt d 48 16
  let new : Domain :=
    { id := id, job := t.job, level := fieldAt d 64 3, code := t.levels.getD (fieldAt d 64 3) 7, opener := some t.id, parent := t.chain.head?,
      point := coreOfSlot k, reentry := fieldAt d 0 48, wdog := fieldAt d 192 32 }
  let s := { s with domains := s.domains ++ [new] }
  let s := s.modTask t.id (fun t => { t with chain := id :: t.chain })
  s.preserve k id es

def execCdopen (d a : Fin 32) (s : State) : Out :=
  s.gated [(a, false)] d true (fun s =>
    let k := s.cur
    let v := s.reg a
    if v.toNat % 64 ≠ 0 then s.trap 0x08 v
    else s.withGot (s.readBlock k v 8) (fun s n =>
      s.withGot (s.readPres k (fieldAt n 128 48) (fieldAt n 176 8)) (fun s l =>
        let es := tilesOf l (fieldAt n 176 8)
        let code := s.openCheck k n es
        if code ≠ 0 then (s.setReg d (domainStatus code)).retire
        else s.withCopies k es (fun s => ((s.openDomain k n es).setReg d 0).retire))))

/-- `CDPRES` preserves into the innermost open domain of the chain, the rind included (R385). -/
def execCdpres (d a : Fin 32) (n : Fin 256) (s : State) : Out :=
  s.gated [(a, false)] d true (fun s =>
    let k := s.cur
    s.withGot (s.readPres k (s.regNat a) (n.val + 1)) (fun s l =>
      let es := tilesOf l (n.val + 1)
      let code := if es.any (fun e => presReserved e || presLen e == 0) then 1 else s.presCheck k es
      if code ≠ 0 then (s.setReg d (domainStatus code)).retire
      else s.withCopies k es (fun s =>
        ((s.preserve k ((s.slotTask k).chain.headD 0) es).setReg d 0).retire)))

/-- Members of a domain and of those nested in it that have not come to COMMITTED or RETIRED (R385), or a rollback of it
that is due at the next boundary (R392). -/
def State.membersLeft (s : State) (job id : Nat) : Bool :=
  (s.findDomain job id).any (fun d => d.faulted.isSome) || s.tasks.any (fun t => t.job == job && s.within job id 8 t.domain && t.st != .committed)

def execCdclose (d a : Fin 32) (s : State) : Out :=
  s.gated [(a, false)] d true (fun s =>
    let t := s.slotTask s.cur
    let id := s.regNat a
    let code :=
      if 2 ^ 16 ≤ id then 1
      else if t.chain.head? != some id || !((s.findDomain t.job id).any (fun d => d.opener == some t.id)) then 6
      else 0
    if code ≠ 0 then (s.setReg d (domainStatus code)).retire
    else if s.membersLeft t.job id then s.pause
    else
      let wide := decide (2 ≤ ((s.findDomain t.job id).map (·.code)).getD 7)
      s.afterWriteBack (fun _ => wide) (fun s =>
        if s.postsLeft (fun _ _ => true) then s.stay
        else
          let s := if wide then s.modCore (coreOfSlot s.cur) (fun c => { c with l1 := [] }) else s
          let outer := (s.findDomain t.job id).any (fun d => d.parent == some 0)
          let s := (s.dropDomain t.job id).modJob t.job (fun j =>
            if outer then { j with lastClosed := some (id, s.now) } else j)
          (s.setReg d 0).retire))

/-! ## Restore (R390) -/

/-- The parity of the bytes that a restore changes in an erasure-coded range follows them (12_copy R323). -/
def State.restoreParity (s : State) (p : Preserve) : State :=
  let h := s.home p.spa
  let cells := (((s.mem.filter (fun c => h.key ≤ c.1 && c.1 < h.key + p.len)) ++ p.bytes).map (·.1)).eraseDups
  let deltas := cells.filterMap (fun x =>
    let d := Memory.read s.mem x ^^^ Memory.read p.bytes x
    if d = 0 then none else (s.ecgByte h.die p.group (p.spa + (x - h.key))).map (fun b => (b, d)))
  deltas.foldl (fun s d => (List.range (FMap.get {} (s.dieAt h.die).ecg p.group).p).foldl (fun s q =>
    s.applyParity h.die p.group q d.1.1 d.1.2.1 [(d.1.2.2, d.2)]) s) s

/-- A COPY entry written back: its bytes and full/empty bits, as they were preserved. -/
def State.restoreCopy (s : State) (p : Preserve) : State :=
  let h := s.home p.spa
  if p.lock || h.outside then s
  else
    let s := s.under h p.len
    let s := if p.group = 0 then s else s.restoreParity p
    let key := h.key
    let here := fun (x : Nat) => key ≤ x && x < key + p.len
    let s : State :=
      { s with
        mem := p.bytes.foldl (fun m (c : Nat × Byte) => Memory.write c.1 c.2 m) (s.mem.wipe key p.len),
        full := p.full.foldl (fun l w => insertWord w l) (s.full.filter (fun w => !here (8 * w))),
        bad := s.bad.filter (fun w => !here (8 * w)) }
    (s.freshenLines p.spa p.len).fireTriggers

/-- The rollback of a domain is carried out at the rotation boundary after its fault (R390). Otherwise the restore of a
domain is complete: every COPY entry has been written back, the first one last, so that bytes
which stand in several hold what the first preserved. A fenced die is waited for (R404). -/
def execDomainRestoreComplete (job domain : Nat) (s : State) : Out :=
  match s.findDomain job domain with
  | none => .next s
  | some d =>
    match d.faulted.filter (fun f => f.cycle < s.cycle) with
    | some f => .next (s.rollbackDue job domain f)
    | none =>
    if !d.restoring then .next s
    else if d.preserves.any (fun p => !p.lock && (s.dieCode (s.home p.spa).die != 0 || (s.dieAt (s.home p.spa).die).lost)) then
      .next (s.after (acNs 4096) (.domainRestoreComplete job domain))
    else
      let s := d.preserves.reverse.foldl State.restoreCopy s
      .next (s.modDomain job domain (fun d => { d with restoring := false }))

end Machine
end Sys2Proof
end

