-- ==== Sys2Proof/Machine/FullEmpty.lean ====
section
/-!
DEFINITION. The full/empty instructions (08_memory_ops R197 to R200), the remote instructions (R206), the atomics
(R210, R211) and the exact-sum cells (07_numbers R181, R182).
-/
namespace Sys2Proof
namespace Machine

/-! ## FEMEM -/

/-- The address of a FEMEM instruction: base plus signExtend(imm[11:3]) · 8 (R199). -/
def State.feAddr (s : State) (a : Fin 32) (o : Fin 512) : Word := s.reg a + simm 9 o <<< 3

/-- A FEMEM access, checked: a mode other than plain, and every FEGET and FESET, only on LM and DRAM (R197). -/
def State.feAccess (s : State) (a : Fin 32) (o : Fin 512) (need : Need) (anyWindow : Bool) (kind : MsgKind)
    (data : Word) (d : Fin 32) (act : Msg → State → State) : State :=
  let va := s.feAddr a o
  s.checked va 8 need (fun h => h.synchronises || (anyWindow && h.plainOk (need == .write) 8)) (fun e spa s =>
    s.bypass va spa 8 (act (s.msgOf kind va e spa 8 data d false)))

/-- A held access of a task that may be speculative: a plain load is tagged, a plain store goes to the write buffer
(01_work R22), and FEGET tags as a load does (log entry 28); the slot's own local memory is not tracked. -/
def State.trackedHeld (s : State) (m : Msg) : State :=
  let k := s.cur
  let own := (s.homeFor k m.spa).own k .lm
  if own then s.heldAccess m
  else if m.kind = .read ∨ m.kind = .feGet then
    if s.tagRoom k m.spa then (s.tagRead k m.spa).heldAccess m else s.block
  else if m.kind = .write ∧ s.buffers k m.spa then
    if s.bufferRoom k m.spa then (s.bufferStore k m.va.toNat m.spa (leBytes 8 m.data.toNat)).retire else s.block
  else s.heldAccess m

/-- `LDFE`: in a wait mode it marks its register, otherwise it is held (R200). A speculative task runs only the plain
mode before it is head (01_work R23). -/
def execLdfe (d a : Fin 32) (t : Bool) (m : Fin 8) (o : Fin 512) (s : State) : Out :=
  s.gated [(a, t)] d (m.val != 0) (fun s =>
    s.feAccess a o .read (m.val == 0) (if m.val = 0 then .read else .loadFe m.val) 0 d (fun x s =>
      if m.val = 1 ∨ m.val = 2 then s.markedAccess x else s.trackedHeld x))

def execSdfe (d a : Fin 32) (t : Bool) (m : Fin 8) (o : Fin 512) (s : State) : Out :=
  s.gated [(d, t), (a, t)] 0 (m.val != 0) (fun s =>
    s.feAccess a o .write (m.val == 0) (if m.val = 0 then .write else .storeFe m.val) (s.reg d) 0 (fun x s => s.trackedHeld x))

def execFeget (d a : Fin 32) (t : Bool) (o : Fin 512) (s : State) : Out :=
  s.gated [(a, t)] d false (fun s => s.feAccess a o .read false .feGet 0 d (fun x s => s.trackedHeld x))

/-- `FESET` changes a bit that no write buffer holds: in a speculative task it waits until the task is head, as every other
access that changes a bit does (log entry 28). -/
def execFeset (d a : Fin 32) (t : Bool) (o : Fin 512) (s : State) : Out :=
  s.gated [(d, t), (a, t)] 0 true (fun s => s.feAccess a o .both false .feSet (s.reg d) 0 (fun x s => s.heldAccess x))

/-! ## Remote instructions -/

/-- The width that R111 codes. -/
def remoteWidth (w : Nat) : Nat := 8 / 2 ^ w

/-- A wait-mode access to the slot's own local memory while another one of the slot waits there: the slot is blocked until the
first is satisfied (R200). -/
def State.secondWait (s : State) (spa : Nat) : Bool := (s.homeFor s.cur spa).own s.cur .lm && s.waitsLocally s.cur

/-- `RLD`: plain reaches every window, the other modes LM and DRAM (R197, R206). -/
def execRld (d a : Fin 32) (t : Bool) (m : Fin 8) (w : Fin 4) (s : State) : Out :=
  s.gated [(a, t)] d true (fun s =>
    let va := s.reg a
    let n := remoteWidth w.val
    s.checked va n .read (fun h => h.synchronises || (m.val == 0 && h.plainOk false n)) (fun e spa s =>
      s.bypass va spa n (fun s =>
        let x := s.msgOf (if m.val = 0 then .read else .loadFe m.val) va e spa n 0 d false
        if x.kind.awaits && s.secondWait spa then s.bubble else
        let id := s.fresh
        (s.send x).modCur (fun x => x.hang (.msg id)))))

/-- `RST`: posted (R206, R207). -/
def execRst (a b : Fin 32) (t u : Bool) (w : Fin 4) (s : State) : Out :=
  s.gated [(a, t), (b, u)] 0 true (fun s =>
    let va := s.reg a
    let n := remoteWidth w.val
    s.checked va n .write (fun h => h.plainOk true n) (fun e spa s =>
      s.bypass va spa n (fun s =>
        s.post (s.msgOf .write va e spa n (BitVec.ofNat 64 ((s.reg b).toNat % 2 ^ (8 * n))) 0 false) false)))

/-- `RSTFE`: fill is posted, wef is held until the reply (R206). -/
def execRstfe (a b : Fin 32) (t u : Bool) (m : Fin 8) (s : State) : Out :=
  s.gated [(a, t), (b, u)] 0 true (fun s =>
    let va := s.reg a
    s.checked va 8 .write (fun h => h.synchronises) (fun e spa s =>
      s.bypass va spa 8 (fun s =>
        let x := s.msgOf (.storeFe m.val) va e spa 8 (s.reg b) 0 false
        if m.val = 4 then s.post x true
        else if s.secondWait spa then s.bubble
        else
          let id := s.fresh
          (s.send x).modCur (fun x => x.hang (.msg id)))))

/-! ## Atomics -/

def amoWidth (w : Bool) : Nat := if w then 4 else 8

/-- The kind of an atomic: FADD takes its format from the width bit (R110). -/
def amoKind (f : Nat) (w : Bool) (cmp : Word) : MsgKind := if f = 10 then .amoFadd w else .amo f cmp

/-- An AMO on a word of the issuing die (R210). -/
def State.atomic (s : State) (d a b : Fin 32) (t u w : Bool) (f : Nat) : Out :=
  s.gated ([(a, t), (b, u)] ++ (if f = 2 then [(d, false)] else [])) d true (fun s =>
    let va := s.reg a
    let n := amoWidth w
    s.checked va n .both (fun h => h.synchronises && !h.outside && h.die == dieOfSlot s.cur) (fun e spa s =>
      s.bypass va spa n (fun s => s.heldAccess (s.msgOf (amoKind f w (s.reg d)) va e spa n (s.reg b) d false))))

def execAmoadd (d a b : Fin 32) (t u w : Bool) (s : State) : Out := s.atomic d a b t u w 0
def execAmoswap (d a b : Fin 32) (t u w : Bool) (s : State) : Out := s.atomic d a b t u w 1
def execAmocas (d a b : Fin 32) (t u w : Bool) (s : State) : Out := s.atomic d a b t u w 2
def execAmoand (d a b : Fin 32) (t u w : Bool) (s : State) : Out := s.atomic d a b t u w 3
def execAmoor (d a b : Fin 32) (t u w : Bool) (s : State) : Out := s.atomic d a b t u w 4
def execAmoxor (d a b : Fin 32) (t u w : Bool) (s : State) : Out := s.atomic d a b t u w 5
def execAmomin (d a b : Fin 32) (t u w : Bool) (s : State) : Out := s.atomic d a b t u w 6
def execAmomax (d a b : Fin 32) (t u w : Bool) (s : State) : Out := s.atomic d a b t u w 7
def execAmominu (d a b : Fin 32) (t u w : Bool) (s : State) : Out := s.atomic d a b t u w 8
def execAmomaxu (d a b : Fin 32) (t u w : Bool) (s : State) : Out := s.atomic d a b t u w 9
/-- `AMOFADD`: the bit `p` selects FP32 (R110, R211). -/
def execAmofadd (d a b : Fin 32) (t u p : Bool) (s : State) : Out := s.atomic d a b t u p 10

/-- `RAMO`: the same functions on a word anywhere (R206). -/
def execRamo (d a b : Fin 32) (t u w : Bool) (f : Fin 16) (s : State) : Out :=
  s.gated ([(a, t), (b, u)] ++ (if f.val = 2 then [(d, false)] else [])) d true (fun s =>
    let va := s.reg a
    let n := amoWidth w
    s.checked va n .both (fun h => h.synchronises) (fun e spa s =>
      s.bypass va spa n (fun s =>
        let x := s.msgOf (amoKind f.val w (s.reg d)) va e spa n (s.reg b) d false
        let id := s.fresh
        (s.send x).modCur (fun x => x.hang (.msg id)))))

/-! ## Exact-sum cells (07_numbers R181, R182) -/

/-- A cell access: 64-byte aligned, R and W rights, LM or DRAM. -/
def State.cell (s : State) (a : Fin 32) (kind : MsgKind) (data : Word) (d : Fin 32) : State :=
  let va := s.reg a
  s.checked va 64 .both (fun h => h.synchronises) (fun e spa s =>
    s.bypass va spa 64 (fun s => s.heldAccess (s.msgOf kind va e spa 64 data d false)))

def execXclr (a : Fin 32) (t : Bool) (s : State) : Out :=
  s.gated [(a, t)] 0 true (fun s => s.cell a .xclr 0 0)

/-- `XACC`: a signalling NaN raises NV as the instruction retires (07_numbers R171), and with NV enabled the trap comes before
anything is written. -/
def execXacc (a b : Fin 32) (t u : Bool) (p : Fin 4) (s : State) : Out :=
  s.gated [(a, t), (b, u)] 0 true (fun s =>
    let va := s.reg a
    let f := fmtOf p.val
    let fl := f.snanFlag [f.bits (s.reg b)]
    s.checked va 64 .both (fun h => h.synchronises) (fun _ _ s =>
      if s.curSlot.enabledFlags fl ≠ 0 then (s.modCur (fun x => x.raise fl)).trap 0x0D (BitVec.ofNat 64 fl)
      else s.cell a (.xacc p.val) (s.reg b) 0))

def execXrnd (d a : Fin 32) (t : Bool) (p : Fin 4) (r : Fin 8) (s : State) : Out :=
  s.gated [(a, t)] d true (fun s => s.cell a (.xrnd p.val (s.roundMode r.val)) 0 d)

end Machine
end Sys2Proof
end

