-- ==== Sys2Proof/Machine/Accord.lean ====
section
/-!
DEFINITION. Accord (03_accord R51 to R62): the bytecodes and their validation, what a program sees, the run of a program
with its budget, and the fallback decisions.
-/
namespace Sys2Proof
namespace Machine

/-! ## Bytecodes (Tables 3-2, 3-3) -/

def bcOp (b : Nat) : Nat := fieldAt b 11 5
def bcD (b : Nat) : Nat := fieldAt b 8 3
def bcS (b : Nat) : Nat := fieldAt b 5 3
def bcF (b : Nat) : Nat := fieldAt b 0 5
def bcImm (b : Nat) : Nat := fieldAt b 0 8

/-- The opcodes of format AI, of format AB, and those that use each field of format AR. -/
def bcIsAI (op : Nat) : Bool := [0x01, 0x02, 0x06, 0x07, 0x11, 0x12, 0x17, 0x1D].contains op
def bcIsAB (op : Nat) : Bool := [0x13, 0x14, 0x15, 0x1E].contains op
def bcUsesS (op : Nat) : Bool :=
  [0x03, 0x04, 0x05, 0x08, 0x0B, 0x0C, 0x0D, 0x0E, 0x0F, 0x10, 0x16, 0x1A, 0x1B, 0x1C].contains op
def bcUsesF (op : Nat) : Bool := [0x09, 0x0A, 0x16, 0x18, 0x19, 0x1A, 0x1B].contains op

/-- Cycles of an opcode. -/
def bcCost (op : Nat) : Nat :=
  if op = 0x16 ∨ op = 0x17 ∨ op = 0x1E then 2 else if op = 0x1A ∨ op = 0x1B then 4 else 1

/-- The index that a branch at `i` goes to; none below 0. -/
def bcTarget (i b : Nat) : Option Nat :=
  let t : Int := (i : Int) + 1 + signedField (bcImm b) 8
  if t < 0 then none else some t.toNat

/-- A bytecode at index `i` of `n` that validation refuses (R54). -/
def bcBad (n i b : Nat) : Bool :=
  let op := bcOp b
  op == 0 || op == 0x1F ||
  (bcIsAB op && bcD b != 0) || (op == 0x1E && bcImm b != 0) ||
  (!bcIsAI op && !bcIsAB op && ((!bcUsesS op && bcS b != 0) || (!bcUsesF op && bcF b != 0))) ||
  ([0x16, 0x1A, 0x1B].contains op && 13 < bcF b) ||
  (op == 0x17 && 15 < bcImm b) ||
  ([0x18, 0x19].contains op && 7 < bcF b) ||
  (op == 0x1D && 3 < bcImm b) ||
  ([0x13, 0x14, 0x15].contains op && (bcTarget i b).all (fun t => n ≤ t))

/-- The first bytecode that fails validation. -/
def firstBad (prog : List Nat) : Option Nat :=
  (prog.zipIdx.find? (fun b => bcBad prog.length b.2 b.1)).map (·.2)

/-! ## What a program sees (R50, R55, R56, R58) -/

/-- Where a task may be placed: its instance and its partition's DIEMASK (R17, R58). -/
def State.mayHold (s : State) (t : Task) (c : Nat) : Bool :=
  let d := dieOfCore c
  Config.isComputeDie d && c % 512 < Config.coresOf d && bitAt t.diemask d && (s.mapAt d).valid &&
    s.dieCode d == 0 && !(s.dieAt d).lost && instanceCore t.code t.point c

/-- The logical dies and the cores that can hold a task, in core order (R58). -/
def coresOfDie (d : Nat) : List Nat := (List.range (Config.coresOf d)).map (fun i => d * 512 + i)
def State.instanceList (s : State) (t : Task) : List Nat :=
  let code := t.code
  let dies := if 4 ≤ code then List.range 12 else [dieOfCore t.point]
  let cores := if code ≤ 1 then [t.point] else if code = 2 then coresOfCluster (clusterOfCore t.point) else dies.flatMap coresOfDie
  cores.filter (s.mayHold t)

/-- Free slots of a core that a queue owns: none while the work list is full (R58, R97). -/
def State.ownedFree (s : State) (part q c : Nat) : List Nat :=
  if 64 ≤ (s.coreAt c).work.length then []
  else (slotsOfCore c).filter (fun k => (s.slotAt k).bind.isNone && (s.slotAt k).owner == some (part, q))

/-- Nothing is resident on a core (R377): no bound slot, work-list entry, PREEMPTED or SWAPPED task. -/
def State.coreIdle (s : State) (c : Nat) : Bool :=
  (slotsOfCore c).all (fun k => (s.slotAt k).bind.isNone) && (s.coreAt c).work.isEmpty &&
    !(s.tasks.any (fun t => (t.st == .preempted || t.st == .swapped) && t.saves.any (fun a => a.core == c)))

/-- The resident set of a core is empty (17_retire R415). -/
def State.coreEmpty (s : State) (c : Nat) : Bool := s.coreIdle c && (s.coreAt c).mat.owner.isNone

/-- The wipe of a core for a task of another partition or job. -/
def State.wipeFor (s : State) (t : Task) (c : Nat) : State :=
  if !s.coreEmpty c then s
  else
    let x := s.coreAt c
    let a := lmBase c
    let other := x.lastPart != some t.part
    let s : State :=
      if other then
        { s with
          mem := s.mem.wipe a Config.lmBytes,
          full := s.full.filter (fun w => !(a ≤ 8 * w && 8 * w < a + Config.lmBytes)),
          bad := s.bad.filter (fun w => !(a ≤ 8 * w && 8 * w < a + Config.lmBytes)) }.closeBank (dieOfCore c) c
      else s
    s.modCore c (fun x =>
      let x := if other then { x with l1 := [], icache := [] } else x
      let x := if other || x.lastJob != some t.job then { x with tbl := [], tblFull := [], tags := [] } else x
      { x with lastPart := some t.part, lastJob := some t.job })

/-- What a paired task asks of its partner core besides (R377). -/
def State.partnerReady (s : State) (t : Task) (c : Nat) : Bool :=
  !t.paired || (s.coreIdle (partnerCore c) && s.dieCode (dieOfCore c) == 0 &&
    bitAt t.diemask (dieOfCore c) && (s.coreAt (partnerCore c)).pairWith.isNone)

/-- A core that a checked pair holds as partner, or that a waiting pair keeps clear, takes nothing new (R377). -/
def State.coreHeld (s : State) (c : Nat) : Bool :=
  (s.coreAt (partnerCore c)).pairWith.isSome || s.tasks.any (fun t => t.paired &&
    (t.st == .preempted || t.st == .swapped) && t.saves.any (fun a => a.core == partnerCore c))

/-- The level is wider than PACKAGE: the gang runs in slices (R69). -/
def wideGang (t : Task) : Bool := 1 < t.decl.gang && 4 < t.code

/-- The cores that the members of a task take when it is placed from core `c` (R58); none where it cannot be placed. -/
def State.roomy (s : State) (t : Task) (c : Nat) : Bool :=
  t.decl.slots ≤ (s.ownedFree t.part t.decl.queue c).length && !s.coreHeld c
def State.placement (s : State) (t : Task) (c : Nat) : Option (List Nat) :=
  if !s.mayHold t c || !s.roomy t c || !s.partnerReady t c then none
  else if t.decl.gang ≤ 1 ∨ wideGang t then some [c]
  else
    let cores := s.instanceList t
    let later := (cores.filter (fun x => c < x) ++ cores.filter (fun x => x < c)).filter (s.roomy t)
    if t.decl.gang - 1 ≤ later.length then some (c :: later.take (t.decl.gang - 1)) else none

/-- A PREEMPTED gang wider than PACKAGE that may be dispatched again (R441, R375). -/
def State.sliceDue (s : State) (t : Task) : Bool :=
  t.st == .preempted && !t.parked && wideGang t &&
    (s.pkg.slices.find? (fun x => x.task == t.id)).all (fun x =>
      x.home == s.fabric.coord && x.wanted.all (fun p => x.saved.contains p))

/-- Ready tasks of a queue in the order in which they became READY (R29); for a dispatch decision, gangs due for a new
slice come first (R441). -/
def insertReady (t : Task) : List Task → List Task
  | [] => [t]
  | u :: us => if t.readyAt < u.readyAt then t :: u :: us else u :: insertReady t us
def State.readyTasks (s : State) (part q : Nat) : List Task :=
  (s.tasks.filter (fun t => t.part == part && t.decl.queue == q && t.st == .ready && !t.parked)).foldl
    (fun l t => insertReady t l) []
def State.headTasks (s : State) (part q : Nat) : List Task :=
  s.tasks.filter (fun t => t.part == part && t.decl.queue == q && s.sliceDue t) ++ s.readyTasks part q

/-- The core from which a task would be placed: for a gang due for a new slice that of member 0. -/
def State.canPlace (s : State) (t : Task) (c : Nat) : Bool :=
  if t.st = .preempted then (FMap.get 0 t.cores 0 == c && s.mayHold t c) else (s.placement t c).isSome

/-- ELIG from a core (Table 3-5). -/
def State.elig (s : State) (part c : Nat) : Nat :=
  ((List.range (s.partAt part).cfg.used.qcount).map (fun q =>
    if (s.headTasks part q).head?.any (fun t => s.canPlace t c) then 2 ^ q else 0)).foldl (· + ·) 0

/-- The deciding core of a dispatch decision (Table 3-1). -/
def State.decidingCore (s : State) (part die : Nat) : Option Nat :=
  let free := fun c => ((slotsOfCore c).filter (fun k =>
    (s.slotAt k).bind.isNone && (s.slotAt k).owner.any (fun o => o.1 == part))).length
  let slices := s.tasks.any s.sliceDue
  if !bitAt (s.partAt part).cfg.used.diemask die then none
  else ((coresOfDie die).filter (fun c => (free c != 0 || slices) && s.elig part c != 0)).foldl
    (fun best c => match best with
      | some b => if free b < free c then some c else some b
      | none => some c) none

/-- Tasks of a queue with slots on a die. -/
def State.runningOn (s : State) (part q die : Nat) : List Task :=
  s.tasks.filter (fun t => t.part == part && t.decl.queue == q && (t.st == .running || t.st == .speculative) &&
    (s.slotsOf t.id).any (fun k => dieOfSlot k == die))

/-- The youngest of some tasks: the one last bound to slots. -/
def youngest (l : List Task) : Option Task :=
  l.foldl (fun b t => match b with
    | some u => if u.boundAt ≤ t.boundAt then some t else some u
    | none => some t) none

/-- Tasks of queue `q` that a pre-emption for `cand`'s ready head may take (RUNQ). -/
def State.victims (s : State) (part q die cand : Nat) : List Task :=
  match (s.readyTasks part cand).head? with
  | some h => (s.runningOn part q die).filter (fun t =>
      (s.slotsOf t.id).any (fun k => dieOfSlot k == die && s.mayHold h (coreOfSlot k)))
  | none => []

def State.runq (s : State) (part die cand : Nat) : Nat :=
  ((List.range (s.partAt part).cfg.used.qcount).map (fun q => if (s.victims part q die cand).isEmpty then 0 else 2 ^ q)).foldl (· + ·) 0

def State.partDie (s : State) (part die : Nat) : PartDie := FMap.get {} (s.dieAt die).parts part
def State.modPartDie (s : State) (part die : Nat) (f : PartDie → PartDie) : State :=
  s.modDie die (fun d => { d with parts := FMap.set part (f (FMap.get {} d.parts part)) d.parts })

/-- Queue field `f` (Table 3-4). HELDC and FREEC count slots of the deciding core: in a pre-emption or fault decision, which has
none, the model reads 0, where the table is silent (log entry 108). -/
def State.queueField (s : State) (d : Decision) (die q f : Nat) : Nat :=
  let p := d.part
  let ready := if d.kind = .dispatch then s.headTasks p q else s.readyTasks p q
  let head := ready.head?
  let all := s.tasks.filter (fun t => t.part == p && t.decl.queue == q && (t.st == .queued || t.st == .ready))
  let held := fun (k : Nat) => (s.slotAt k).owner == some (p, q)
  if (s.partAt p).cfg.used.qcount ≤ q then 0
  else match f with
    | 0 => all.length
    | 1 => (all.filter (fun t => t.st == .ready)).length
    | 2 => (head.map (fun t => min (s.cycle - t.readyCycle) (2 ^ 32 - 1))).getD 0
    | 3 => (head.map (fun t => t.decl.tstamp)).getD 0
    | 4 => FMap.get 1 (s.partDie p die).weights q
    | 5 => (s.partAt p).pol.prio / 2 ^ (4 * q) % 16
    | 6 => if d.kind = .dispatch then (slotsOfCore d.core).countP held else 0
    | 7 => (s.slots.filter (fun e => dieOfSlot e.1 == die && held e.1)).length
    | 8 => if d.kind = .dispatch then (slotsOfCore d.core).countP (fun k => held k && (s.slotAt k).bind.isNone) else 0
    | 9 => (head.map (fun t => t.decl.slots)).getD 0
    | 10 => (head.map (fun t => t.decl.gang)).getD 0
    | 11 => (all.head?.map (fun t => (List.range t.decl.nin).countP (fun i => !(FMap.get {} t.staging i).resident))).getD 0
    | 12 => (s.runningOn p q die).length
    | 13 => ((youngest (s.runningOn p q die)).map (fun t => s.cycle - t.boundAt)).getD 0
    | _ => 0

/-- Context field `f` (Table 3-5). -/
def State.contextField (s : State) (d : Decision) (die f : Nat) : Nat :=
  let p := s.partAt d.part
  let disp := d.kind == .dispatch
  match f with
  | 0 => match d.kind with | .dispatch => 0 | .preempt => 1 | .fault => 2
  | 1 => p.cfg.energy
  | 2 => p.cfg.used.share
  | 3 => p.pol.overruns
  | 4 => d.fcode
  | 5 => if d.kind = .fault then (s.taskAt d.task).fretry else 0
  | 6 => if disp then 0 else d.candq
  | 7 => if disp then s.elig d.part d.core else 0
  | 8 => if d.kind = .preempt then s.runq d.part die d.candq else 0
  | 9 => (s.partDie d.part die).qptr
  | 10 => if disp then d.core % 512 else 0
  | 11 => die
  | 12 => s.now
  | 13 => if disp then (slotsOfCore d.core).countP (fun k =>
      (s.slotAt k).bind.isNone && (s.slotAt k).owner.any (fun o => o.1 == d.part)) else 0
  | 14 => (s.partDie d.part die).version
  | 15 => p.cfg.used.qcount
  | _ => 0

/-! ## The run of a program (R51, R53, R57, R59) -/

/-- A running program: working registers, F, decision registers, staged writes, and its budget. -/
structure Accord where
  a : FMap Nat := []
  f : Bool := false
  dec : FMap Nat := []
  held : FMap Word := []
  weights : FMap Nat := []
  next : Nat := 0
  count : Nat := 0
  cycles : Nat := 0
deriving DecidableEq, Repr

/-- The queue with the largest or smallest field among those of a mask; the nearest to QPTR wins a tie. -/
def selectQueue (field : Nat → Nat) (mask qcount qptr : Nat) (largest : Bool) : Option Nat :=
  ((List.range 16).map (fun i => (qptr + i) % 16)).foldl (fun best q =>
    if q < qcount && bitAt mask q then
      match best with
      | some b => if (if largest then decide (field b < field q) else decide (field q < field b)) then some q else some b
      | none => some q
    else best) none

/-- One bytecode. `field` and `ctx` are the views, `held` the held registers at the start, `mine` the decision registers
of the kind. -/
def Accord.exec (x : Accord) (b : Nat) (field : Nat → Nat → Nat) (ctx : Nat → Nat) (held : FMap Word) (qcount qptr : Nat)
    (mine : List Nat) : Accord :=
  let d := bcD b
  let ad := FMap.get 0 x.a d
  let as := FMap.get 0 x.a (bcS b)
  let imm := bcImm b
  let y := { x with next := x.next + 1, count := x.count + 1, cycles := x.cycles + bcCost (bcOp b) }
  let put := fun (v : Nat) => { y with a := FMap.set d (v % 2 ^ 64) y.a }
  let jump := fun (c : Bool) => if c then { y with next := (bcTarget x.next b).getD y.next } else y
  let sat := fun (v : Nat) => put (min v (2 ^ 64 - 1))
  let pick := fun (largest : Bool) =>
    match selectQueue (fun q => field q (bcF b)) as qcount qptr largest with
    | some q => { put q with f := true }
    | none => { put 16 with f := false }
  match bcOp b with
  | 0x01 => put imm
  | 0x02 => put (ad * 256 + imm)
  | 0x03 => put as
  | 0x04 => sat (ad + as)
  | 0x05 => put (ad - as)
  | 0x06 => sat (ad + imm)
  | 0x07 => put (ad - imm)
  | 0x08 => sat (ad * as)
  | 0x09 => put (ad / 2 ^ bcF b)
  | 0x0A => put (ad * 2 ^ bcF b)
  | 0x0B => put (min ad as)
  | 0x0C => put (max ad as)
  | 0x0D => put (ad &&& as)
  | 0x0E => put (ad ||| as)
  | 0x0F => { y with f := decide (ad < as) }
  | 0x10 => { y with f := decide (ad = as) }
  | 0x11 => { y with f := decide (ad < imm) }
  | 0x12 => { y with f := decide (ad = imm) }
  | 0x13 => jump x.f
  | 0x14 => jump (!x.f)
  | 0x15 => jump true
  | 0x16 => put (field (as % 16) (bcF b))
  | 0x17 => put (ctx imm)
  | 0x18 => put (FMap.get 0 held (bcF b)).toNat
  | 0x19 => { y with held := FMap.set (bcF b) (BitVec.ofNat 64 ad) y.held }
  | 0x1A => pick true
  | 0x1B => pick false
  | 0x1C => { y with weights := FMap.set (ad % 16) (min as 255) y.weights }
  | 0x1D => if mine.contains imm then { y with dec := FMap.set imm ad y.dec } else y
  | _ => y

/-- How a run ends: at FIN, or with an overrun's cause, index and cycles (R59). -/
inductive RunEnd where
  | fin (x : Accord) (idx : Nat)
  | overrun (cause idx cycles : Nat)

/-- The sequencer checks the count, then that the bytecode exists, then its cost (R59). -/
def Accord.run (prog : List Nat) (field : Nat → Nat → Nat) (ctx : Nat → Nat) (held : FMap Word) (qcount qptr : Nat)
    (mine : List Nat) : Nat → Accord → RunEnd
  | 0, x => .overrun 1 x.next x.cycles
  | n + 1, x =>
    if 64 ≤ x.count then .overrun 1 x.next x.cycles
    else match prog[x.next]? with
      | none => .overrun 3 x.next x.cycles
      | some b =>
        if 128 < x.cycles + bcCost (bcOp b) then .overrun 2 x.next x.cycles
        else if bcOp b = 0x1E then .fin x x.next
        else Accord.run prog field ctx held qcount qptr mine n (x.exec b field ctx held qcount qptr mine)

/-- The decision registers of a kind (Table 3-6). -/
def DecKind.registers (k : DecKind) : List Nat :=
  match k with
  | .dispatch => [0, 1]
  | .preempt => [2]
  | .fault => [3]

def Accord.choice (x : Accord) : Choice :=
  { dqueue := FMap.get 16 x.dec 0, dpick := FMap.get 0 x.dec 1, pvictim := FMap.get 16 x.dec 2, faction := FMap.get 0 x.dec 3 }

/-- A choice is valid against the snapshot (Table 3-6). DPICK is bounded by the ready heads, a gang due for a new slice
included (R441), while field READYN counts READY tasks alone: the table does not say which bound it means (log entry 108). -/
def State.choiceValid (s : State) (d : Decision) (die : Nat) (c : Choice) : Bool :=
  match d.kind with
  | .dispatch => 16 ≤ c.dqueue || (bitAt (s.elig d.part d.core) c.dqueue && c.dpick ≤ 7 &&
      ((s.headTasks d.part c.dqueue)[c.dpick]?).any (fun t => s.canPlace t d.core))
  | .preempt => 16 ≤ c.pvictim || bitAt (s.runq d.part die d.candq) c.pvictim
  | .fault => c.faction ≤ 3

/-! ## The fallback (R61) -/

def State.fallback (s : State) (d : Decision) (die : Nat) : Choice :=
  match d.kind with
  | .dispatch =>
    let e := s.elig d.part d.core
    let p := s.partAt d.part
    let prio := fun q => p.pol.prio / 2 ^ (4 * q) % 16
    let since := fun q => ((s.headTasks d.part q).head?.map (fun t => t.readyAt)).getD 0
    let qs := ((List.range 16).map (fun i => ((s.partDie d.part die).qptr + i) % 16)).filter (fun q => bitAt e q)
    match qs.foldl (fun best q => match best with
        | some b => if prio b < prio q || (prio b == prio q && since q < since b) then some q else some b
        | none => some q) none with
    | some q => { dqueue := q }
    | none => {}
  | .preempt => {}
  | .fault => { faction := if (s.taskAt d.task).fretry = 0 then 0 else 3 }

end Machine
end Sys2Proof
end

