-- ==== Sys2Proof/Machine/Sys.lean ====
section
/-!
DEFINITION. The SYS instructions: service and breakpoint, CSR accesses, YIELD, EMPTY and HALT (06_scalar R142,
R151 to R156, R161, R162), and the traps of words that are no instruction (05_encoding R103, 15_interrupts R366).
-/
namespace Sys2Proof
namespace Machine

/-- `SVC` retires and then traps: tpc is the next instruction, tval is n; in a speculative task it waits until the
task is head (R152, 01_work R23). -/
def execSvc (n : Fin 4096) (s : State) : Out :=
  s.gated [] 0 true (fun s =>
    (s.modCur Slot.noteIssue).enterTrap s.cur 0x06 false (s.curSlot.pc + 4) (BitVec.ofNat 64 n.val))

/-- `BRK` traps without retiring (R152). -/
def execBrk (n : Fin 4096) (s : State) : Out :=
  s.gated [] 0 false (fun s => s.trap 0x07 (BitVec.ofNat 64 n.val))

/-! ## Control and status registers -/

/-- The coordinate that `place` reads: that of the lost package for which this one stands (16_recovery R398). -/
def State.placeCoord (s : State) : Nat :=
  ((s.fabric.redirects.find? (fun r => r.2.valid && r.2.sdie == 15 && r.2.tpkg == s.fabric.coord)).map (·.2.spkg)).getD
    s.fabric.coord

/-- `place` (Table 6-12). -/
def State.csrPlace (s : State) (k : Nat) : Nat :=
  let c := coreOfSlot k
  let t := s.slotTask k
  s.placeCoord * 2 ^ 48 + dieOfCore c * 2 ^ 44 + (c / 8 % 64) * 2 ^ 37 + (c % 8) * 2 ^ 34 + (k % 16) * 2 ^ 30 +
    t.decl.level * 2 ^ 27 + t.levels.getD t.decl.level 0 * 2 ^ 24

/-- `member` (Table 6-13). -/
def State.csrMember (s : State) (k : Nat) : Nat :=
  let b := (s.slotAt k).who
  b.j * 2 ^ 32 + (s.slotTask k).decl.gang * 2 ^ 16 + b.m

/-- `tctx` (Table 6-14). -/
def State.csrTctx (s : State) (k : Nat) : Nat :=
  let t := s.slotTask k
  t.asid * 2 ^ 54 + t.part * 2 ^ 48 + t.job * 2 ^ 32

/-- `domain`: id and level of the innermost open domain (Table 6-8). -/
def State.csrDomain (s : State) (k : Nat) : Nat :=
  let t := s.slotTask k
  let id := t.chain.head?.getD 0
  let level := ((s.findDomain t.job id).map (·.level)).getD 0
  id * 2 ^ 48 + level * 2 ^ 45

/-- The slot whose values a slot of a checked pair reads: the primary's (15_interrupts R378). -/
def State.csrSlot (s : State) (k : Nat) : Nat :=
  match (s.slotAt k).bind with
  | some b =>
    if b.secondary then
      ((s.slots.find? (fun e => e.2.bind == some { b with secondary := false })).map (·.1)).getD k
    else k
  | none => k

/-- The value of a CSR that a slot reads (Table 6-8, R162). -/
def State.csrRead (s : State) (k n : Nat) : Word :=
  let x := s.slotAt k
  let p := s.csrSlot k
  let y := s.slotAt p
  match n with
  | 0x000 => x.csr.fcsr
  | 0x001 => x.csr.tstat
  | 0x002 => x.csr.tvec
  | 0x003 => x.csr.tcause
  | 0x004 => x.csr.tpc
  | 0x005 => x.csr.tval
  | 0x006 => x.csr.tjrn
  | 0x007 => x.csr.tscratch
  | 0x010 => x.pix
  | 0x018 => x.bb.win.setWidth 64
  | 0x019 => (x.bb.win >>> 64).setWidth 64
  | 0x01A => BitVec.ofNat 64 x.bb.cnt
  | 0x01B => x.bb.ptr.setWidth 64
  | 0x01C => x.bb.lim.setWidth 64
  | 0x020 => BitVec.ofNat 64 (s.slotTask p).id
  | 0x021 => BitVec.ofNat 64 (s.csrPlace p)
  | 0x022 => BitVec.ofNat 64 (s.csrMember p)
  | 0x023 => BitVec.ofNat 64 (s.csrTctx p)
  | 0x024 => BitVec.ofNat 64 (s.csrDomain p)
  | 0x030 => BitVec.ofNat 64 (s.cycle - s.bootCycle + p % 16)
  | 0x031 => BitVec.ofNat 64 (acNs (s.cycle + p % 16))
  | 0x032 => BitVec.ofNat 64 y.issued
  | 0x033 => BitVec.ofNat 64 y.lost
  | 0x038 => BitVec.ofNat 64 (s.partAt (s.slotTask p).part).cfg.energy
  | _ => 0

/-- fcsr as written: reserved fields 0, LIBVER the silicon's 1, RM 110 and 111 stored as 000 (Table 6-10). -/
def fcsrWritten (v : Word) : Word :=
  let rm := if 6 ≤ v.toNat % 8 then 0 else v.toNat % 8
  BitVec.ofNat 64 (2 ^ 40 + v.toNat % 2 ^ 13 / 8 * 8 + rm)

/-- Only IDZE of tstat is written (Table 6-11). -/
def tstatWritten (old v : Word) : Word := (old &&& 1) ||| (v &&& 2)

/-- A write of tjrn first retires the REFUSED entry that the old value names, if it belongs to the slot (08_memory_ops
R209). -/
def State.retireJournal (s : State) (k : Nat) : State :=
  let e := (s.slotAt k).csr.tjrn.toNat / 2 ^ 10 % 64
  let c := coreOfSlot k
  match FMap.find (s.coreAt c).journal e with
  | some j =>
    if j.slot = k ∧ j.st ≠ .sent then
      (s.modCore c (fun c => { c with journal := FMap.drop e c.journal })).modSlot k (fun x =>
        { x with pend := x.pend.filter (fun p => !(p.cause == 0x21 && p.tval.toNat == e)) })
    else s
  | none => s

/-- The effect of a CSR write on the slot's registers; every other CSR ignores it (R154, R7). -/
def Csrs.write (c : Csrs) (n : Nat) (v : Word) : Csrs :=
  match n with
  | 0x000 => { c with fcsr := fcsrWritten v }
  | 0x001 => { c with tstat := tstatWritten c.tstat v }
  | 0x002 => { c with tvec := v }
  | 0x003 => { c with tcause := v }
  | 0x004 => { c with tpc := v }
  | 0x005 => { c with tval := v }
  | 0x006 => { c with tjrn := v }
  | 0x007 => { c with tscratch := v }
  | _ => c

def State.csrWrite (s : State) (k n : Nat) (v : Word) : State :=
  let s := if n = 0x006 then s.retireJournal k else s
  s.modSlot k (fun x => { x with csr := x.csr.write n v })

/-- `CSRR`. A read of pix outside a handler at another address than the one it belongs to returns the value that this very
issue clears: 09_vector R233 and 15_interrupts R364 do not say which value is read (log entry 123). -/
def execCsrr (d : Fin 32) (c : Fin 4096) (s : State) : Out :=
  s.gated [] d false (fun s => (s.setReg d (s.csrRead s.cur c.val)).retire)

/-- `CSRW` returns the old value (R154). -/
def execCsrw (d a : Fin 32) (c : Fin 4096) (s : State) : Out :=
  s.gated [(a, false)] d false (fun s =>
    ((s.csrWrite s.cur c.val (s.reg a)).setReg d (s.csrRead s.cur c.val)).retire)

/-! ## YIELD, EMPTY, HALT -/

def execYield (n : Fin 4096) (s : State) : Out :=
  s.gated [] 0 false (fun s => s.retire.modCur (fun x => { x with yielding := n.val }))

/-- The registers that `EMPTY` names: `n` + 1 of them from rd (R142). -/
def emptyRegs (d n : Fin 32) : List (Fin 32) := (List.range (n.val + 1)).map (fun i => regFin (d.val + i))

def execEmpty (d n : Fin 32) (s : State) : Out :=
  if (emptyRegs d n).any (fun r => s.curSlot.pending r) then .next s.bubble
  else .next (s.modCur (fun x => ((emptyRegs d n).foldl (fun x r => x.setSt r .empty) x).retire))

/-- `HALT` goes on at once when the wake flag is set, and clears it; otherwise the slot is held (R156). -/
def execHalt (s : State) : Out :=
  s.gated [] 0 false (fun s => s.modCur (fun x => if x.wake then { x.retire with wake := false } else x.hang .halt))

/-! ## Traps without an instruction -/

/-- An unassigned or all-zero word: tval is the word, nothing else changes (05_encoding R103). -/
def execIllegalInstruction (word : BitVec 32) (s : State) : Out := .next (s.trap 0x01 (word.setWidth 64))

/-- The slot's first turn with INTRAP 0 takes the pending trap with the lowest stamp (15_interrupts R366). -/
def execAsyncTrapEntry (slot : Nat) (s : State) : Out :=
  let x := s.slotAt slot
  if x.intrap || !s.canTakeTrap slot then .next s
  else match x.pend with
    | [] => .next s
    | p :: ps => .next (s.takePending slot (lowestStamp p ps))

end Machine
end Sys2Proof
end

