-- ==== Sys2Proof/Machine/Area.lean ====
section
/-!
DEFINITION. The bytes of a save area (15_interrupts R372, R373, Tables 15-3 and 15-4): what the context store or the staging
region holds of a saved slot, and what software has written there.
-/
namespace Sys2Proof
namespace Machine

/-- `n` bytes with fields at their offsets; every byte between them is 0. -/
def layBytes (n : Nat) (fields : List (Nat × List Byte)) : List Byte :=
  fields.foldl (fun l f => splice l f.1 f.2) (List.replicate n 0)

/-- A number of bits, bit i set where `p i`. -/
def bitsWhere (n : Nat) (p : Nat → Bool) : Nat := ((List.range n).map (fun i => boolNat (p i) * 2 ^ i)).foldl (· + ·) 0

/-- The two bits of a register's state. -/
def RegState.code (r : RegState) : Nat := match r with | .full => 0 | .empty => 1 | .pending => 2 | .resend => 3
def RegState.ofCode (n : Nat) : RegState := match n % 4 with | 0 => .full | 1 => .empty | 2 => .pending | _ => .resend

/-- Engine registers in a save area, in order. -/
def areaEng : List Nat := [0, 1, 32, 33, 34, 40, 41, 42, 43, 44, 45, 46]

/-! ## Copy records (Table 15-4, 12_copy R329) -/

/-- WIN: bit i is set when box FLOOR + i is complete. -/
def Cmd.win (c : Cmd) : Nat := bitsWhere 64 (fun i => c.settled.contains (c.floor + i))

/-- The recipient of an item under way and the slot that it has claimed. -/
def Cmd.claimed (c : Cmd) : List (Nat × Nat) :=
  (c.claims.filter (fun e => e.2 != 0)).map (fun e =>
    ((if c.fn = 3 then ((c.entries[e.1]?).map (·.recip)).getD 0 else e.1) % 16, e.2 / 2 ^ 112))

/-- The record of an uncompleted command. -/
def State.copyRecord (s : State) (c : Cmd) : List Byte :=
  let reads := c.fn == 2 || c.fn == 3
  let claims := if reads then c.claimed else []
  let held := bitsWhere 64 (fun i => s.boxes.any (fun b => b.cmd == c.id && b.num == c.floor + i && b.held))
  let head := bitsWhere 16 (fun n => claims.any (fun e => e.1 == n)) * 2 ^ 48 + c.floor % 4096 * 2 ^ 36 +
    (c.nbox - 1) % 4096 * 2 ^ 24 + c.fn % 32 * 2 ^ 19 + c.token % 8 * 2 ^ 16 + c.queue % 8 * 2 ^ 13 + 2 ^ 12
  let regs := if reads then [40, 41, 42] else engRead c.fn
  layBytes 128 ([(0, leBytes 8 head), (8, leBytes 8 c.win), (16, leBytes 8 c.ra.toNat), (24, leBytes 8 c.rb.toNat)] ++
    regs.zipIdx.map (fun r => (32 + 8 * r.2, leBytes 8 (c.e r.1))) ++
    claims.map (fun e => (56 + 4 * e.1, leBytes 4 e.2)) ++
    [(120, leBytes 8 (if c.fn = 4 ∧ arOrd (c.e 44) then held else 0))])

/-! ## The image of a saved slot (Table 15-3) -/

def feMode (x : MsgKind) : Nat := match x with | .loadFe m => m | _ => 0

/-- The producer table: `LDFE`s to be sent again, and those whose negative reply waits as a trap. -/
def SaveArea.producerTable (a : SaveArea) : List (Nat × List Byte) :=
  a.producers.map (fun m => (0x400 + 16 * m.reg.val, leBytes 8 m.va.toNat ++ leBytes 8 (feMode m.kind * 2 ^ 53))) ++
  (a.slot.pend.filter (fun p => p.cause == 0x20)).map (fun p => (0x400 + 16 * (p.reg % 32),
    leBytes 8 (p.tval.toNat % 2 ^ 48) ++
      leBytes 8 (2 ^ 63 + p.tval.toNat / 2 ^ 56 % 128 * 2 ^ 56 + p.mode % 8 * 2 ^ 53 + p.stamp)))

/-- The 4 KiB of a save area and its vector extension, which follows them; `at'` is its address. -/
def State.areaImage (s : State) (a : SaveArea) (at' : Nat) : List Byte :=
  let x := a.slot
  let copies := s.cmds.filter (fun c => a.copies.contains c.id)
  let refusals := x.pend.filter (fun p => p.cause == 0x22)
  let mask := bitsWhere 32 (fun n => (FMap.find a.input n).isSome)
  let c := x.csr
  let words := [c.fcsr, c.tstat, c.tvec, c.tcause, c.tpc, c.tval, c.tjrn, c.tscratch, x.pix, x.pixAt.getD 0].map (·.toNat) ++
    [x.bb.win.toNat % 2 ^ 64, x.bb.win.toNat / 2 ^ 64, x.bb.cnt, x.bb.ptr.toNat, x.bb.lim.toNat,
      boolNat x.wake * 2 ^ 63 + boolNat (x.hold == some .halt) * 2 ^ 62 + boolNat (a.lanes != 0) * 2 ^ 61 +
        a.lanes % 256 * 2 ^ 48 + mask] ++
    areaEng.map (fun e => (FMap.get 0 x.eng e).toNat) ++
    [if a.lanes = 0 then 0 else at' + 4096,
      copies.length * 2 ^ 56 + a.refusedJ.length * 2 ^ 48 + refusals.length * 2 ^ 40]
  layBytes (4096 + 64 * a.lanes)
    (((List.range 32).map (fun n => (8 * n, leBytes 8 (x.reg (regFin n)).toNat))) ++
    [(0x100, leBytes 8 (((List.range 32).map (fun n => (x.g[n]?.getD {}).st.code * 4 ^ n)).foldl (· + ·) 0)),
      (0x108, leBytes 8 x.pc.toNat)] ++
    words.zipIdx.map (fun w => (0x110 + 8 * w.2, leBytes 8 w.1)) ++
    ((List.range 8).map (fun i => let k := x.tok[i]?.getD {}; (0x200 + 16 * i, leBytes 8 k.status ++ leBytes 8 k.addr))) ++
    refusals.zipIdx.map (fun p => (0x280 + 16 * p.2, leBytes 8 p.1.tval.toNat ++ leBytes 8 p.1.stamp)) ++
    a.input.map (fun e => (0x300 + 8 * (e.1 % 32), leBytes 8 e.2.toNat)) ++
    a.producerTable ++
    a.refusedJ.zipIdx.map (fun e => (0x600 + 32 * (e.2 % 16), leBytes 8 e.1.2.va.toNat ++ leBytes 8 e.1.2.data.toNat ++
      leBytes 8 (tjrnOf e.1.1 e.1.2 (match e.1.2.st with | .refused c => c | .sent => 0)).toNat ++ leBytes 8 e.1.2.stamp)) ++
    copies.zipIdx.map (fun c => (0x800 + 128 * (c.2 % 16), s.copyRecord c.1)) ++
    x.vreg.map (fun e => (4096 + 4 * (a.lanes * (e.1 / 128) + e.1 % 128), leBytes 4 e.2.toNat)))

/-! ## What software has written into an area -/

/-- The state that an area's bytes give its slot, each CSR under the write rules of its map (R374 step 1). Copy records and
the producer table stand as the machine wrote them (log entry 65). -/
def SaveArea.withImage (a : SaveArea) (bs : List Byte) : SaveArea :=
  let w := fun (o : Nat) => BitVec.ofNat 64 (leNat ((bs.drop o).take 8))
  let n := fun (o : Nat) => leNat ((bs.drop o).take 8)
  let x := a.slot
  let word := n 0x188
  let tok := fun (i : Nat) =>
    let v := n (0x200 + 16 * i)
    { count := v % 256, code := v / 2 ^ 56, dup := bitAt v 53, more := bitAt v 52, box := fieldAt v 32 12,
      kind := (match fieldAt v 54 2 with | 1 => OutKind.neg | 2 => .fault | _ => .none), addr := n (0x208 + 16 * i) : Token }
  let pend := x.pend.filter (fun p => p.cause != 0x22) ++ (List.range (min 8 (fieldAt (n 0x1F8) 40 8))).map (fun i =>
    { cause := 0x22, tval := w (0x280 + 16 * i), stamp := n (0x288 + 16 * i) % 65536 : PendingTrap })
  { a with
    input := ((List.range 32).filter (fun r => bitAt word r)).map (fun r => (r, w (0x300 + 8 * r))),
    refusedJ := a.refusedJ.zipIdx.map (fun e =>
      (e.1.1, { e.1.2 with va := w (0x600 + 32 * e.2), data := w (0x608 + 32 * e.2), stamp := n (0x618 + 32 * e.2) % 65536 })),
    slot := { x with
      g := Vector.ofFn (fun i => ⟨w (8 * i.val), RegState.ofCode (n 0x100 / 4 ^ i.val)⟩),
      pc := w 0x108,
      csr := { fcsr := fcsrWritten (w 0x110), tstat := w 0x118 &&& 3, tvec := w 0x120, tcause := w 0x128, tpc := w 0x130,
               tval := w 0x138, tjrn := w 0x140, tscratch := w 0x148 },
      pix := w 0x150, pixAt := if x.pixAt.isNone ∧ n 0x158 = 0 then none else some (w 0x158),
      bb := { win := BitVec.ofNat 128 (n 0x160 + n 0x168 * 2 ^ 64), cnt := n 0x170, ptr := BitVec.ofNat 48 (n 0x178),
              lim := BitVec.ofNat 48 (n 0x180) },
      wake := bitAt word 63,
      hold := if bitAt word 62 then some .halt else if x.hold = some .halt then none else x.hold,
      eng := areaEng.zipIdx.foldl (fun m e => FMap.set e.1 (w (0x190 + 8 * e.2)) m) x.eng,
      tok := Vector.ofFn (fun i => tok i.val), pend := pend,
      vreg := x.vreg.map (fun e =>
        (e.1, BitVec.ofNat 32 (leNat ((bs.drop (4096 + 4 * (a.lanes * (e.1 / 128) + e.1 % 128))).take 4)))) } }

/-- Where the bytes of an area stand in the model's memory: in the staging region, where that can be reached, or in a place of
its own for the context store, which lies at no address that a program can reach. -/
def State.areaKey (s : State) (id : Nat) (a : SaveArea) : Option Nat :=
  match a.spa with
  | some p => s.stagingKey p
  | none => some (2 ^ 60 + ((id * 2 ^ 16 + a.m) * 16 + a.j) * 2 ^ 16)

/-- The address that SAVEADDR reports for an area: in the staging region its place, in the context store one that the rules
leave open (16_recovery R403). -/
def SaveArea.address (a : SaveArea) (id savedAt : Nat) : Nat := a.spa.getD (Config.spaOfSaveArea (16 * id + a.j) savedAt % 2 ^ 60)

/-- An area and its bytes agree again: what software has written goes into the area, and what has been delivered to the area
goes to its bytes. -/
def State.refreshArea (s : State) (t : Task) (a : SaveArea) : State × SaveArea :=
  match s.areaKey t.id a with
  | none => (s, a)
  | some key =>
    let image := s.areaImage a (a.address t.id t.savedAt)
    let now := s.readUnder 0 key image.length
    let soft := !a.written.isEmpty && now != a.written
    let merged := if soft then (image.zip (now.zip a.written)).map (fun b => if b.2.1 = b.2.2 then b.1 else b.2.1) else image
    let b := if soft then a.withImage merged else a
    (if now = merged then s else (s.underKey 0 key merged.length).store key merged, { b with written := merged })

/-- The same for every area of a task. -/
def State.refreshAreas (s : State) (id : Nat) : State :=
  let t := s.taskAt id
  let r := t.saves.foldl (fun (r : State × List SaveArea) a =>
    let q := r.1.refreshArea t a
    (q.1, r.2 ++ [q.2])) (s, [])
  if t.saves.isEmpty then s else r.1.modTask id (fun t => { t with saves := r.2 })

/-- The areas of a task leave their places, whose bytes read zero again. -/
def State.liftAreas (s : State) (id : Nat) : State :=
  let s := s.refreshAreas id
  let t := s.taskAt id
  let s := t.saves.foldl (fun (s : State) a =>
    match s.areaKey id a with
    | some key =>
      let u := s.underKey 0 key a.written.length
      { u with mem := u.mem.wipe key a.written.length }
    | none => s) s
  s.modTask id (fun t => { t with saves := t.saves.map (fun a => { a with written := [] }) })

end Machine
end Sys2Proof
end

