-- ==== Sys2Proof/Machine/Grouped.lean ====
section
/-!
DEFINITION. Grouped-value rows (11_grouped R278 to R289): `MGV` and `MGVB`, the grant of the cluster's queues, and the
rows.
-/
namespace Sys2Proof
namespace Machine

/-! ## Registers (R281) -/

def Slot.gvAddr (x : Slot) : Nat := x.engReg 32
def Slot.gvAstr (x : Slot) : Int := signedField (x.engReg 33 % 2 ^ 32) 32
def Slot.gvOstr (x : Slot) : Int := signedField (x.engReg 33 / 2 ^ 32) 32
def Slot.gvKlen (x : Slot) : Nat := x.engReg 34 % 65536
def Slot.gvRows (x : Slot) : Nat := fieldAt (x.engReg 34) 16 24 + 1
def Slot.gvAcc (x : Slot) : Bool := bitAt (x.engReg 34) 48

/-- Bytes of an activation in a range. -/
def gvWidth (e : Range) : Nat := if e.efmt ≤ 1 then 4 else 2

/-- An activation's bits as FP32. -/
def gvActivation (e : Range) (v : Nat) : Nat := if e.efmt ≤ 1 then v else if e.efmt = 2 then widenTo32 fp16 v else widenTo32 bf16 v

/-- A range that R280 accepts for a stream. -/
def Range.gvStream (e : Range) : Bool := e.efmt == 2 || e.efmt == 3 || (e.efmt == 4 && !e.planar)

/-- A group value's bits as FP32 (R280). -/
def gvValue (e : Range) (v : Nat) : Nat :=
  if e.efmt = 2 then widenTo32 fp16 v else if e.efmt = 3 then widenTo32 bf16 v else (fromTapered 8 fp32 0 v).1

/-- Lowest and highest of four corners of a stretch. -/
def lowest (l : List Int) : Int := l.foldl min (l.headD 0)
def highest (l : List Int) : Int := l.foldl max (l.headD 0)

/-- The addresses of a rectangle: base, step over `n` rows, `m` columns of width `w`: first byte and byte after the last. -/
def gvSpan (base : Nat) (step : Int) (n m w : Nat) : Int × Int :=
  let far := (base : Int) + (n - 1 : Nat) * step
  (lowest [(base : Int), far], highest [(base : Int), far] + (m * w : Nat))

/-- The range that holds a whole span. -/
def State.gvRange (s : State) (k : Nat) (span : Int × Int) : Option (Range × Nat) :=
  if span.1 < 0 then none
  else s.translate (dieOfSlot k) (s.asidOf k) span.1.toNat (span.2 - span.1).toNat

/-! ## Issue (R283) -/

def Home.gvPlace (h : Home) : Bool := h.win == .lm || h.win == .dram

/-- The code of the first failing check. -/
def State.gvCode (s : State) (byColumn : Bool) (a b : Nat) : Nat :=
  let k := s.cur
  let x := s.curSlot
  let e34 := x.engReg 34
  let cols := fieldAt e34 40 4 + 1
  if x.engReg 32 / 2 ^ 48 != 0 || e34 / 2 ^ 49 != 0 || (if byColumn then fieldAt e34 44 4 != 0 else fieldAt e34 40 4 != 0) then 1
  else if x.gvKlen = 0 || 65533 < x.gvKlen then 2
  else
    let stream := s.translate (dieOfSlot k) (s.asidOf k) a 1
    let okStream := a % 8 == 0 && stream.any (fun r => r.1.r && r.1.gvStream && (s.home r.2).gvPlace)
    let first := s.translate (dieOfSlot k) (s.asidOf k) x.gvAddr 1
    let d := (first.map (fun r => gvWidth r.1)).getD 4
    let span := gvSpan x.gvAddr x.gvAstr x.gvKlen cols d
    let okAct := x.gvAddr % d == 0 && (x.gvKlen == 1 || x.gvAstr % d == 0) &&
      (s.gvRange k span).any (fun r => r.1.r && r.1.efmt ≤ 3 && (s.homeFor k r.2).own k .lm &&
        (s.homeFor k (r.2 + (span.2 - span.1 - 1).toNat)).own k .lm)
    let ospan := gvSpan b x.gvOstr x.gvRows cols 4
    let okOut := b % 4 == 0 && (x.gvRows == 1 || x.gvOstr % 4 == 0) &&
      (s.gvRange k ospan).any (fun r => r.1.w && (!x.gvAcc || r.1.r) && r.1.ecg == 0 && (s.home r.2).gvPlace &&
        (s.home (r.2 + (ospan.2 - ospan.1 - 1).toNat)).gvPlace)
    if !okStream then 3 else if !okAct then 4 else if !okOut then 5 else 0

/-- `MGV` and `MGVB` at issue: the token is set, the slot is held, and queues are asked for. -/
def State.gvIssue (s : State) (i : Instr) (byColumn : Bool) (k : Fin 8) (w : Nat) (a b : Fin 32) : Out :=
  s.outsideHandler i (fun s => s.gatedE [a, b] 0 w true (fun s =>
    let code := s.gvCode byColumn (s.regNat a) (s.regNat b)
    if code ≠ 0 then s.trap 0x15 (BitVec.ofNat 64 code)
    else if s.curSlot.tokenFull k.val then s.bubble
    else
      let x := s.curSlot
      let cols := fieldAt (x.engReg 34) 40 4 + 1
      let r : GvRun :=
        { ra := s.reg a, rb := s.reg b, token := k.val,
          queues := if byColumn then cols else fieldAt (x.engReg 34) 44 4 + 1, cols := cols,
          row := x.startAt / 2 ^ 40, off := x.startAt % 2 ^ 40 }
      let q := clusterOfSlot s.cur
      let s := s.modCluster q (fun c => { c with gvWait := c.gvWait ++ [(s.cur, 0)] })
      (s.modCur (fun x => (x.countUp k.val).hang (.gv false r))).push (.gvQueueGrant q)))

def execMgv (k : Fin 8) (w : Fin 256) (a b : Fin 32) (s : State) : Out := s.gvIssue (.mgv k w a b) false k w a b
def execMgvb (k : Fin 8) (w : Fin 256) (a b : Fin 32) (s : State) : Out := s.gvIssue (.mgvb k w a b) true k w a b

/-! ## The queues (R288) -/

/-- Queues in use in a cluster. -/
def State.gvUsed (s : State) (q : Nat) : Nat :=
  s.slots.foldl (fun n e =>
    match e.2.hold with
    | some (.gv true r) => if clusterOfSlot e.1 = q then n + r.queues else n
    | _ => n) 0

/-- Queues that a waiting slot wants. -/
def Slot.gvNeed (x : Slot) : Nat :=
  match x.hold with
  | some (.gv false r) => r.queues
  | _ => 0

/-- Waiting requests that may be granted: none behind one that has waited through two completions. -/
def gvEligible : List (Nat × Nat) → List (Nat × Nat)
  | [] => []
  | e :: l => if 2 ≤ e.2 then [e] else e :: gvEligible l

/-- The request granted next: among the eligible that fit, the lowest core, then slot. -/
def State.gvPick (s : State) (q : Nat) : Option Nat :=
  let room := 16 - s.gvUsed q
  ((gvEligible (s.clusterAt q).gvWait).filter (fun e => (s.slotAt e.1).gvNeed ≤ room)).foldl
    (fun b e => match b with
      | none => some e.1
      | some k => some (min k e.1)) none

def State.gvGrantFuel : Nat → Nat → State → State
  | 0, _, s => s
  | n + 1, q, s =>
    match s.gvPick q with
    | none => s
    | some k =>
      let s := s.modCluster q (fun c => { c with gvWait := c.gvWait.filter (fun e => e.1 != k) })
      let s := s.modSlot k (fun x =>
        match x.hold with
        | some (.gv _ r) => { x with hold := some (.gv true r) }
        | _ => x)
      State.gvGrantFuel n q (s.push (.gvRowComplete k))

def execGvQueueGrant (cluster : Nat) (s : State) : Out :=
  .next (State.gvGrantFuel (s.clusterAt cluster).gvWait.length cluster s)

/-- An instruction leaves its queues: the requests that wait have seen one more completion. -/
def State.gvFree (s : State) (k : Nat) : State :=
  let q := clusterOfSlot k
  (s.modCluster q (fun c => { c with gvWait := (c.gvWait.filter (fun e => e.1 != k)).map (fun e => (e.1, e.2 + 1)) })).push
    (.gvQueueGrant q)

/-! ## Rows (R278, R284, R286) -/

/-- What a row gives: its groups with their positions and the units up to the next row; a format fault with its kind,
group and unit; a negative reply at a unit; or a wait for a rebuild. -/
inductive RowEnd where
  | ok (groups : List (Nat × List Nat)) (units : Nat)
  | bad (kind group unit : Nat)
  | reply (unit code : Nat)
  | stall (chunk : Nat × Nat)
deriving DecidableEq, Repr

/-- A unit of a row, or what stands in its way. -/
def State.gvUnit (s : State) (e : Range) (v group unit : Nat) : Except RowEnd Nat :=
  let a := v + 2 * unit
  if e.limit < (a + 1) / 65536 then .error (.bad 6 group unit)
  else
    let spa := e.spa a
    match s.lostChunk spa with
    | some d => .error (.stall d)
    | none =>
      let code := s.homeReply spa 2 true
      if code ≠ 0 then .error (.reply unit code) else .ok (leNat (s.homeBytes spa 2))

/-- Positions from unit `u` to the boundary token. -/
def State.gvPositions (s : State) (e : Range) (v len g : Nat) : Nat → Nat → List Nat → Except RowEnd (List Nat × Nat)
  | 0, u, _ => .error (.bad 6 g u)
  | n + 1, u, ps =>
    match s.gvUnit e v g u with
    | .error r => .error r
    | .ok p =>
      if p = 0xFFFF then .ok (ps, u + 1)
      else if p = 0xFFFE then .error (.bad 2 g u)
      else if p = 0xFFFD || len ≤ p then .error (.bad 3 g u)
      else s.gvPositions e v len g n (u + 1) (ps ++ [p])

/-- Groups `g` on from unit `u`. -/
def State.gvGroups (s : State) (e : Range) (v len : Nat) : Nat → Nat → Nat → List (Nat × List Nat) →
    Except RowEnd (List (Nat × List Nat) × Nat)
  | 0, _, u, gs => .ok (gs, u)
  | n + 1, g, u, gs =>
    match s.gvUnit e v g u with
    | .error r => .error r
    | .ok x =>
      if e.efmt = 4 ∧ 256 ≤ x then .error (.bad 4 g u)
      else match s.gvPositions e v len g ((e.limit + 1) * 32768) (u + 1) [] with
        | .error r => .error r
        | .ok (ps, u') => s.gvGroups e v len n (g + 1) u' (gs ++ [(gvValue e x, ps)])

/-- The padding after the row end. -/
def State.gvPadding (s : State) (e : Range) (v g : Nat) : List Nat → Option RowEnd
  | [] => none
  | u :: us =>
    match s.gvUnit e v g u with
    | .error r => some r
    | .ok x => if x ≠ 0 then some (.bad 5 g u) else s.gvPadding e v g us

/-- Parses the row whose header stands at `v`. -/
def State.gvParse (s : State) (e : Range) (v klen : Nat) : RowEnd :=
  match s.gvUnit e v 0 0, s.gvUnit e v 0 1, s.gvUnit e v 0 2, s.gvUnit e v 0 3 with
  | .ok h0, .ok h1, .ok h2, .ok h3 =>
    let ng := h1 % 256
    let nunits := h2 + 65536 * h3
    if h0 ≠ klen then .bad 1 0 0
    else if h1 / 256 ≠ 0 then .bad 1 0 1
    else if nunits < 2 * ng + 1 then .bad 1 0 2
    else match s.gvGroups e v klen ng 0 4 [] with
      | .error r => r
      | .ok (gs, u) =>
        match s.gvUnit e v ng u with
        | .error r => r
        | .ok x =>
          if x ≠ 0xFFFE then .bad 2 ng u
          else if u ≠ nunits + 3 then .bad 5 ng u
          else
            let units := (u + 1 + 3) / 4 * 4
            match s.gvPadding e v ng ((List.range (units - (u + 1))).map (fun i => u + 1 + i)) with
            | some r => r
            | none => .ok gs units
  | .error r, _, _, _ => r
  | _, .error r, _, _ => r
  | _, _, .error r, _ => r
  | _, _, _, .error r => r

/-- The row total of a column and its flags; `act` reads activation p. -/
def gvTotal (act : Nat → Nat) (gs : List (Nat × List Nat)) : Nat × Nat :=
  gs.foldl (fun t g =>
    let sum := g.2.foldl (fun z p =>
      let r := fp32.addBits 0 z.1 (act p)
      (r.1, z.2 ||| r.2)) (fp32.signBit, 0)
    let r := fp32.fmaBits 0 false false g.1 sum.1 t.1
    (r.1, t.2 ||| sum.2 ||| r.2)) (0, 0)

/-- The slot leaves the instruction: flags, token, queues. -/
def State.gvLeave (s : State) (k : Nat) (r : GvRun) : State :=
  let who := (s.slotAt k).who
  (((s.modSlot k (fun x => x.raise r.flags)).tokenDone who r.token).gvFree k)

def GvRun.pix (r : GvRun) : Nat := r.row * 2 ^ 40 + r.off

/-- A trap at a row: the fault stands in the token's record, with a code that the manual does not give, and the index
holds the row (R285, R287). -/
def State.gvTrap (s : State) (k : Nat) (r : GvRun) (cause : Nat) (val : Word) : State :=
  let f := (Config.freeWord s.freeCtr k).toNat
  let s := s.recordAs (s.slotAt k).who r.token false .fault (f % 256) 0 (f / 256)
  ((s.gvLeave k r).modSlot k (fun x => x.setPix r.pix)).trapHeld k cause val

/-- Row `r.row` with its groups: outputs written, and the next row. -/
def State.gvWrite (s : State) (k : Nat) (r : GvRun) (gs : List (Nat × List Nat)) (units : Nat) : State :=
  let x := s.slotAt k
  let die := dieOfSlot k
  let asid := s.asidOf k
  let task := (s.slotTask k).id
  match s.translate die asid x.gvAddr 1 with
  | none => s
  | some (e, spa) =>
    let d := gvWidth e
    let key := (s.homeFor k spa).key
    let at' := fun (c p : Nat) => ((key : Int) + (p : Int) * x.gvAstr + (c * d : Nat)).toNat
    let act := fun (c p : Nat) => gvActivation e (s.loadNat (at' c p) d)
    if gs.any (fun g => g.2.any (fun p => s.isBad (at' 0 p) (d * r.cols))) then
      (s.eccFound task (s.homeFor k spa) spa 0).after (acNs 16) (.gvRowComplete k)
    else
    let out := (List.range r.cols).map (fun c =>
      (((r.rb.toNat : Int) + r.row * x.gvOstr + (4 * c : Nat)).toNat, gvTotal (act c) gs))
    match out.findSome? (fun o => (s.translate die asid o.1 4).bind (fun t => s.lostChunk t.2)) with
    | some d => (s.awaitChunk d).after (acNs 16) (.gvRowComplete k)
    | none =>
    let reply := out.findSome? (fun o =>
      match s.translate die asid o.1 4 with
      | some (_, a) => if s.homeReply a 4 x.gvAcc = 0 then none else some (o.1, s.homeReply a 4 x.gvAcc)
      | none => none)
    match reply with
    | some z => s.gvTrap k r 0x0E (replyVal z.2 (BitVec.ofNat 64 z.1))
    | none =>
      let put := fun (z : State × Nat) (o : Nat × Nat × Nat) =>
        match s.translate die asid o.1 4 with
        | some (_, a) =>
          let h := s.homeFor k a
          let v := if x.gvAcc then fp32.addBits 0 (leNat (z.1.homeBytes a 4)) o.2.1 else (o.2.1, 0)
          (if h.outside then z.1 else (z.1.chargeBytes task h 4).deliverBytes h (leBytes 4 v.1), z.2 ||| o.2.2 ||| v.2)
        | none => z
      let z := out.foldl put (s, r.flags)
      let n := (gs.map (fun g => g.2.length)).foldl (· + ·) 0
      let r' := { r with row := r.row + 1, off := r.off + 2 * units, flags := z.2 }
      ((z.1.charge task (400 * n * r.cols + 200 * units)).modSlot k (fun x => { x with hold := some (.gv true r') })).after
        (acNs 16) (.gvRowComplete k)

/-- A row's turn: the end of the instruction, the pause of a slot that is being pre-empted, or the row itself. -/
def State.gvRow (s : State) (k : Nat) (r : GvRun) : State :=
  let x := s.slotAt k
  if x.gvRows ≤ r.row then (s.gvLeave k r).modSlot k (fun x => x.clearPix.finish)
  else if x.stopped then
    ((s.gvLeave k r).modSlot k (fun x => { x.setPix r.pix with hold := none, reissue := false })).saveLater (s.slotTask k).id
  else match s.translate (dieOfSlot k) (s.asidOf k) r.ra.toNat 1 with
    | none => s.gvTrap k r 0x09 r.ra
    | some (e, _) =>
      let v := r.ra.toNat + r.off
      match s.gvParse e v x.gvKlen with
      | .ok gs units => s.gvWrite k r gs units
      | .bad kind g u => s.gvTrap k r 0x16 (BitVec.ofNat 64 (r.row * 2 ^ 40 + g * 2 ^ 32 + kind * 2 ^ 28 + u))
      | .reply u code =>
        let s' := s.gvTrap k r 0x0E (replyVal code (BitVec.ofNat 64 (v + 2 * u)))
        if code = 5 then s'.opReport (s.slotTask k).id { code := 5, va := r.ra, spa := e.spa (v + 2 * u), group := e.ecg } else s'
      | .stall d => (s.awaitChunk d).after (acNs 16) (.gvRowComplete k)

def execGvRowComplete (slot : Nat) (s : State) : Out :=
  match (s.slotAt slot).hold with
  | some (.gv true r) => .next (if s.translationHeld (s.asidOf slot) then s.after (acNs 16) (.gvRowComplete slot)
      else (s.gvRow slot r).mirror slot)
  | _ => .next s

end Machine
end Sys2Proof
end

