-- ==== Sys2Proof/Machine/Preempt.lean ====
section
/-!
DEFINITION. Pre-emption (15_interrupts R367 to R375; 03_accord R441): requests, the settling of instructions, the save
areas, swapping, and resume.
-/
namespace Sys2Proof
namespace Machine

/-! ## Room for save areas (R373) -/

/-- A die's context store. -/
def contextStore : Nat := 2 * 2 ^ 20

/-- The bytes that a task's save areas take, on one die or altogether. -/
def Task.savedOn (t : Task) (die : Nat) : Nat :=
  ((t.saves.filter (fun a => dieOfCore a.core == die)).map (fun a => saveBytes a.lanes)).foldl (· + ·) 0
def Task.savedAll (t : Task) : Nat := (t.saves.map (fun a => saveBytes a.lanes)).foldl (· + ·) 0

/-- A task whose save areas lie in context stores. -/
def Task.inStore (t : Task) : Bool := t.st == .preempted || (t.st == .rolledBack && !t.saves.isEmpty)

/-- Bytes of a die's context store in use. -/
def State.storeUsed (s : State) (die : Nat) : Nat :=
  ((s.tasks.filter Task.inStore).map (fun t => t.savedOn die)).foldl (· + ·) 0

/-- What the bound slots of a task will take on a die. -/
def State.toSave (s : State) (id die : Nat) : Nat :=
  (((s.slotsOf id).filter (fun k => dieOfSlot k == die && !(s.slotAt k).who.secondary)).map
    (fun k => saveBytes (s.slotAt k).lanes)).foldl (· + ·) 0

/-- Bytes of a die's context store that are in use, or promised to other tasks whose saves are under way. -/
def State.storeTaken (s : State) (id die : Nat) : Nat :=
  s.storeUsed die + ((s.tasks.filter (fun t => t.saving.isSome && t.id != id)).map (fun t => s.toSave t.id die)).foldl (· + ·) 0

/-- The save areas of a task, each with its place in the staging region of its partition. None: they do not fit. -/
def State.placeAreas (s : State) (part : Nat) (taken : List (Nat × Nat)) : List SaveArea → Option (List SaveArea)
  | [] => some []
  | a :: as =>
    let u := (s.partAt part).cfg.used
    match fitAt u.stagebase (u.stagesize * 65536) 64 (saveBytes a.lanes) taken with
    | none => none
    | some x => (s.placeAreas part ((x, saveBytes a.lanes) :: taken) as).map (fun l => { a with spa := some x } :: l)
def State.swapPlaces (s : State) (t : Task) : Option (List SaveArea) :=
  s.placeAreas t.part (s.stagingTaken t.part) t.saves
def State.stagingRoom (s : State) (t : Task) : Bool := (s.swapPlaces t).isSome

/-- A task's areas are at the address that SAVEADDR has reported, and stay there until its RELEASE, REQUEUE or KILL
(16_recovery R403). -/
def Task.pinned (t : Task) : Bool := t.parked && t.saves.any (·.pinned)

/-- PREEMPTED becomes SWAPPED where the staging region has room: the areas and their bytes move there. -/
def State.swapOutTask (s : State) (id : Nat) : State :=
  if (s.taskAt id).st ≠ .preempted ∨ (s.taskAt id).pinned then s
  else
    let s' := s.liftAreas id
    match s'.swapPlaces (s'.taskAt id) with
    | some l => (s'.modTask id (fun t => { t with st := .swapped, saves := l })).refreshAreas id
    | none => s

def execSwapOut (task : Nat) (s : State) : Out := .next (s.swapOutTask task)

/-- SWAPPED becomes PREEMPTED again where the context stores have room. -/
def execSwapIn (task : Nat) (s : State) : Out :=
  let t := s.taskAt task
  let fits := (List.range 12).all (fun d => t.savedOn d = 0 || s.storeTaken task d + t.savedOn d ≤ contextStore)
  .next (if t.st = .swapped ∧ fits ∧ !t.pinned then (((s.liftAreas task).modTask task (fun t =>
    { t with st := .preempted, saves := t.saves.map (fun a => { a with spa := none }) })).refreshAreas task).fetchAgain t.part
    else s)

/-- Makes room on a die for the save of a task: PREEMPTED tasks go out, the earliest saved first. -/
def earliestSaved (l : List Task) : Option Task :=
  l.foldl (fun b t => match b with
    | some u => if t.savedAt < u.savedAt then some t else some u
    | none => some t) none
def State.makeStoreRoom (s : State) (id die : Nat) : Nat → State
  | 0 => s
  | n + 1 =>
    if s.storeTaken id die + s.toSave id die ≤ contextStore then s
    else match earliestSaved (s.tasks.filter (fun t =>
        t.st == .preempted && !t.pinned && t.savedOn die != 0 && s.stagingRoom t)) with
      | some t => State.makeStoreRoom (s.swapOutTask t.id) id die n
      | none => s

def State.storeDies (s : State) (id : Nat) : List Nat := ((s.slotsOf id).map dieOfSlot).eraseDups
def State.withStoreRoom (s : State) (id : Nat) : State :=
  (s.storeDies id).foldl (fun s d => s.makeStoreRoom id d s.tasks.length) s
def State.storeFits (s : State) (id : Nat) : Bool :=
  (s.storeDies id).all (fun d => s.storeTaken id d + s.toSave id d ≤ contextStore)

/-! ## The request (R367, R371) -/

/-- Time to the next balancing-interval boundary of a die. -/
def State.toBalance (s : State) (die : Nat) : Nat :=
  acNs ((s.dieAt die).interval - s.cycle % (s.dieAt die).interval)

/-- A request: void while one is settling or when the task does not run; begun when its save areas can be placed, else
posed again at the next balancing-interval boundary. -/
def State.requestPreempt (s : State) (id : Nat) : State :=
  let t := s.taskAt id
  if !(t.st == .running || t.st == .speculative) || t.saving.isSome then s
  else
    let s := s.withStoreRoom id
    if s.storeFits id then s.stopTask id .plain else s.after (s.toBalance t.die) (.preemptionRequest id)

def execPreemptionRequest (task : Nat) (s : State) : Out := .next (s.requestPreempt task)

/-! ## The result of a matched item of a checked pair (R378) -/

/-- The primary's core, where the port of the pair keeps its items. -/
def State.pairCore (s : State) (k : Nat) : Nat :=
  if (s.slotAt k).who.secondary then partnerCore (coreOfSlot k) else coreOfSlot k

/-- What an item has changed in the primary, carried over to the secondary (R378). -/
def Slot.takeResult (y before now : Slot) : Slot :=
  { y.noteIssue with
    pc := now.pc, hold := none, reissue := false, ended := now.ended, stopped := now.stopped,
    g := Vector.ofFn (fun i => if now.g[i] = before.g[i] then y.g[i] else now.g[i]),
    csr := if now.csr = before.csr then y.csr else now.csr,
    bb := if now.bb = before.bb then y.bb else now.bb,
    pix := if now.pix = before.pix then y.pix else now.pix,
    pixAt := if now.pixAt = before.pixAt then y.pixAt else now.pixAt,
    eng := if now.eng = before.eng then y.eng else now.eng,
    tok := if now.tok = before.tok then y.tok else now.tok,
    vreg := if now.vreg = before.vreg then y.vreg else now.vreg,
    pend := now.pend, stamp := now.stamp, wake := now.wake }

/-- Before a turn of a checked pair's slot, and before its save: a matched item whose instruction has ended in the primary
reaches the secondary, and its entries leave the port. -/
def State.pairResultOf (s : State) (k : Nat) : State :=
  match s.twin k with
  | none => s
  | some k2 =>
    let b := (s.slotAt k).who
    let c := s.pairCore k
    let p := if b.secondary then k2 else k
    let q := if b.secondary then k else k2
    let x := s.slotAt p
    match (s.coreAt c).items.find? (fun t => t.j == b.j && !t.secondary && t.matched) with
    | none => s
    | some t =>
      if x.hold.isSome || x.reissue || (x.pc == t.before.pc && x.csr.tstat == t.before.csr.tstat) then s
      else (s.modSlot q (fun y => y.takeResult t.before x)).modCore c (fun c =>
        { c with items := c.items.filter (fun t => t.j != b.j) })

/-! ## Settling (Table 15-2) -/

/-- A wait can be withdrawn (08_memory_ops R203): the message stands in a list of this package and is no release, whose end
the save awaits (13_consistency R337); or another package's home holds it, where it is open whether it waits, and whether the
withdrawal comes before it is performed. -/
def State.withdrawable (s : State) (m : Msg) : Bool :=
  match m.st with
  | .waiting => m.kind != .relFill && m.kind != .relMark
  | .sent => (s.home m.spa).outside && m.kind.awaits && Config.freeCode s.freeCtr m.id % 2 == 0
  | _ => false

/-- One slot's instruction in progress: waits are withdrawn, turns still to be lost are discarded, and an item of a checked
pair that has not been matched is given up. What is left holds the save until it ends. -/
def State.settleSlot (s : State) (k : Nat) : State :=
  let x := s.slotAt k
  let free : Slot → Slot := fun x => { x with hold := none, reissue := false }
  match x.hold with
  | some (.turns _) => s.modSlot k free
  | some .pairItem =>
    if (s.coreAt (s.pairCore k)).items.any (fun t => t.matched && t.j == x.who.j) then s else s.modSlot k free
  | some (.gv false r) =>
    (((s.tokenDone x.who r.token).modSlot k free).modCluster (clusterOfSlot k) (fun c =>
      { c with gvWait := c.gvWait.filter (fun e => e.1 != k) })).push (.gvQueueGrant (clusterOfSlot k))
  | some (.msg id) =>
    match s.findMsg id with
    | some m => if s.withdrawable m then (s.dropMsg id).modSlot k free else s
    | none => s
  | _ => s

/-- Nothing of the slot is in progress any more: its instruction, its posted stores, its commands' boxes (R209, R329). -/
def State.slotSettled (s : State) (k : Nat) : Bool :=
  let x := s.slotAt k
  (x.hold == none || x.hold == some .halt) && !(x.reissue && !x.ended) &&
    !(s.wbs.any (fun w => w.slot == some k)) &&
    !((s.coreAt (coreOfSlot k)).journal.any (fun e => e.2.slot == k && e.2.st == .sent)) &&
    (s.cmds.filter (fun c => c.who == x.who)).all (fun c => s.boxesSettled c true)

/-! ## The save (R369, R372) -/

/-- The words of a waiting copy box for registers of slot `k`: SPA, register and value. None where one of its pieces would
be refused. -/
def State.boxRegs (s : State) (k : Nat) (b : Box) : List (Nat × Nat × Word) :=
  if b.waitsAt.isNone || b.pieces.any (fun p => s.pieceCode b.asid true p != 0) then []
  else (b.left b.pieces).flatMap (fun p => (cutAt 8 p.spa p.len).filterMap (fun c =>
    let h := s.home c.1
    if h.win = .reg ∧ !h.outside ∧ h.regSlot = k then
      some (c.1, h.regNum.val, BitVec.ofNat 64 (leNat ((b.data.drop (p.off + c.1 - p.spa)).take 8)))
    else none))

/-- Writes that wait for the slot's windows, messages and copy boxes, go to its input block; what else a box writes follows
(R369). -/
def State.inputBlock (s : State) (k : Nat) : State × FMap Word :=
  let ms := s.msgs.filter (fun m => m.st == .waiting && (s.home m.spa).win == .reg && (s.home m.spa).regSlot == k)
  let bs := s.boxes.filter (fun b => !(s.boxRegs k b).isEmpty)
  let r := ms.foldl (fun (r : State × FMap Word) m =>
    (r.1.answer m 0 0, FMap.set (r.1.home m.spa).regNum.val m.data r.2)) (s, [])
  bs.foldl (fun (r : State × FMap Word) b =>
    let ws := s.boxRegs k b
    let s' := r.1.modBox b.id (fun x => { x with landed := x.landed ++ ws.map (·.1), waitsAt := none })
    (s'.pushAll (b.waitsAt.toList.map (·.2)),
      ws.foldl (fun f w => if w.2.1 = 0 then f else FMap.set w.2.1 w.2.2 f) r.2)) r

/-- A slot's save area: its state, REFUSED entries, uncompleted commands, and the producers to be sent again. -/
def State.saveSlot (s : State) (k : Nat) : State × SaveArea :=
  let x := s.slotAt k
  let b := x.who
  let c := coreOfSlot k
  let i := s.inputBlock k
  let s := i.1
  let again := s.msgs.filter (fun m => m.who == b && m.marking && s.withdrawable m)
  let y := again.foldl (fun y m => y.setSt m.reg .resend) (s.slotAt k)
  let ids := (s.cmds.filter (fun d => d.who == b)).map (·.id)
  let area : SaveArea :=
    { j := b.j, m := b.m, core := c, refusedJ := (s.coreAt c).journal.filter (fun e => e.2.slot == k), copies := ids,
      producers := again, input := i.2, lanes := x.lanes,
      slot := { y with owner := none, bind := none, claim := none, stopped := false, issued := 0, lost := 0, idle := 0 } }
  let s := { s with msgs := s.msgs.filter (fun m => !(again.any (fun a => a.id == m.id))) }
  let s := s.modCore c (fun c => { c with
    journal := c.journal.filter (fun e => e.2.slot != k),
    queues := c.queues.map (fun e => (e.1, e.2.filter (fun q =>
      match q with
      | .cmd n => !ids.contains n
      | .join _ => true))) })
  (s.pushAll ((List.range 8).map (fun q => .engineBoxIssue c q)), area)

/-- What two copies of a slot must have in common at a pre-emption of a checked pair (R379). -/
def Slot.sameSave (x y : Slot) : Bool :=
  x.pc == y.pc && x.g == y.g && x.csr == y.csr && x.bb == y.bb && x.pix == y.pix && x.pixAt == y.pixAt && x.eng == y.eng &&
    x.tok == y.tok && x.vreg == y.vreg && x.lanes == y.lanes && x.hold == y.hold && x.wake == y.wake && x.ended == y.ended

/-- The slots of a task become free; those of a pre-emption for a waiting queue take that queue as owner (03_accord
R58). -/
def State.freeSlots (s : State) (id : Nat) : State :=
  let t := s.taskAt id
  let freed := s.slotsOf id
  let s := s.modSlots freed (fun x =>
    match t.freeFor with
    | some q => { owner := some (t.part, q), kept := true }
    | none => { owner := x.owner })
  (s.modTask id (fun t => { t with freeFor := none })).unquietDies (freed.map dieOfSlot)

/-- An attempt that goes to ROLLED-BACK gives up its buffered lines, its tags and its spawned children (01_work R23,
R24). -/
def State.dropSpec (s : State) (id : Nat) : State :=
  let s := (s.discardChildren id).modTask id (fun t => { t with wrote := [] })
  { s with cores := s.cores.map (fun c => (c.1, { c.2 with
      spec := c.2.spec.filter (fun l => l.task != id), readTags := c.2.readTags.filter (fun e => e.1 != id) })) }

/-- Every slot has settled: the areas are saved, and the task is PREEMPTED, or what its save was for. -/
def State.saveTask (s : State) (id : Nat) (e : SaveEnd) : State :=
  let ks := (s.slotsOf id).filter (fun k => !(s.slotAt k).who.secondary)
  let differ := ks.any (fun k => (s.twin k).any (fun k2 => !(s.slotAt k).sameSave (s.slotAt k2)))
  if differ then (s.note (.reported 2 id)).containedFault id 2
  else
    let r := ks.foldl (fun (r : State × List SaveArea) k =>
      let q := r.1.saveSlot k
      (q.1, r.2 ++ [q.2])) (s, [])
    let held := r.1.cores.filter (fun c => c.2.pairWith == some id)
    let s := held.foldl (fun s c => s.modCore c.1 (fun c => { c with items := [] })) (r.1.freeSlots id)
    let t := s.taskAt id
    let told := (s.findJob t.job).any (fun j => j.parkedFor.isNone)
    let park := e == .park || e == .parkRolledBack
    let s := if e = .parkRolledBack then s.dropSpec id else s
    let s := s.modTask id (fun t => { t with
      st := if e = .parkRolledBack then .rolledBack else .preempted, parked := t.parked || park,
      saves := r.2, saving := none, savedAt := s.cycle })
    let s := { s with pkg := { s.pkg with slices := s.pkg.slices.map (fun (x : Slice) =>
      if x.task = id then { x with started := false, saved := s.fabric.coord :: x.saved } else x) } }
    let s := s.refreshAreas id
    if park && told then s.note (.parkedTask t.part id) else s

def execPreemptionSave (task : Nat) (s : State) : Out :=
  let t := s.taskAt task
  match t.saving with
  | none => .next s
  | some e =>
    if !(t.st == .running || t.st == .speculative) then .next s
    else
      let s := (s.slotsOf task).foldl (fun s k => (s.pairResultOf k).settleSlot k) s
      if !((s.slotsOf task).all s.slotSettled) then .next (s.saveLater task)
      else
        let s := s.withStoreRoom task
        .next (if s.storeFits task then s.saveTask task e else s.saveLater task)

/-! ## Resume (R374, R217; 03_accord R441) -/

/-- REFUSED entries enter the core's journal, and their pending traps, in both copies of a checked pair, name the new entries
(R209). -/
def State.restoreJournal (s : State) (k : Nat) : FMap JEntry → State
  | [] => s
  | (old, j) :: es =>
    let c := coreOfSlot k
    match (s.coreAt c).freeEntry with
    | none => s
    | some n =>
      let s := s.modCore c (fun c => { c with journal := FMap.set n { j with slot := k } c.journal })
      let s := s.modSlots (k :: (s.twin k).toList) (fun x => { x with pend := x.pend.map (fun (p : PendingTrap) =>
        if p.cause = 0x21 ∧ p.tval = BitVec.ofNat 64 old ∧ p.stamp = j.stamp then { p with tval := BitVec.ofNat 64 n } else p) })
      State.restoreJournal s k es

/-- A word of the input block, for both copies of a checked pair: written now, or after the value that its register waits for
(06_scalar R140). -/
def State.restoreInput (s : State) (k : Nat) (w : Nat × Word) : State :=
  let r := regFin w.1
  if (s.slotAt k).pending r then
    let spa := coreWindow (coreOfSlot k) 1 + (k % 16) * 256 + 8 * r.val
    let m : Msg :=
      { id := s.fresh, slot := k, core := coreOfSlot k, asid := s.asidOf k, kind := .write, va := 0, spa := spa, width := 8,
        data := w.2, who := { task := noTaskId }, st := .waiting }
    { s.bumpId with msgs := s.msgs ++ [m] }
  else s.modSlots (k :: (s.twin k).toList) (fun x => x.windowWrite r w.2)

/-- The claim is granted again: up to L0 lanes, in both copies of a checked pair. -/
def State.restoreClaim (s : State) (k lanes : Nat) : State :=
  if lanes = 0 then s
  else
    let s := s.grantUpTo k (lanes / 8)
    s.modSlots (k :: (s.twin k).toList) (fun x => { x.keepLanes (min lanes x.lanes) with
      eng := FMap.set 0 (BitVec.ofNat 64 (min (x.engReg 0) x.lanes)) x.eng })

/-- Binds a saved slot to hardware slot `k`: its state as it was saved. -/
def State.bindSaved (s : State) (t : Task) (a : SaveArea) (k : Nat) (secondary : Bool) : State :=
  let b : Binding := ⟨t.id, a.j, a.m, secondary⟩
  s.setSlot k { a.slot with owner := some (t.part, t.decl.queue), bind := some b }

/-- The rest of a slot's resume, once the claims have been granted, in the order of R374. -/
def State.resumeSlot (s : State) (a : SaveArea) (k : Nat) : State :=
  let c := coreOfSlot k
  let s := a.input.foldl (fun s w => s.restoreInput k w) s
  let s := a.producers.foldl (fun s m =>
    let spa := ((s.translate (dieOfCore c) m.asid m.va.toNat m.width).map (·.2)).getD m.spa
    (s.modSlots (k :: (s.twin k).toList) (fun x => x.setSt m.reg .pending)).send
      { m with slot := k, core := c, st := .sent, spa := spa }) s
  s.restoreJournal k a.refusedJ

/-- A command stands again before a join that waits for it (13_consistency R339), else at the end of its queue. -/
def State.requeueCmd (s : State) (q : List QEntry) (id : Nat) : List QEntry :=
  let waits := fun (e : QEntry) =>
    match e with
    | .join n => s.joins.any (fun j => j.id == n && j.ahead.contains id)
    | .cmd _ => false
  q.takeWhile (fun e => !waits e) ++ [.cmd id] ++ q.dropWhile (fun e => !waits e)

/-- The uncompleted commands of a task re-enter their queues in their former order (12_copy R329). -/
def State.restoreCopies (s : State) (ids : List Nat) : State :=
  (s.cmds.filter (fun d => ids.contains d.id)).foldl (fun s d =>
    let s := s.modCmd d.id (fun d => { d with next := 0 })
    (s.modCore d.core (fun c => { c with
      queues := FMap.set d.queue (s.requeueCmd (FMap.get [] c.queues d.queue) d.id) c.queues })).push
      (.engineBoxIssue d.core d.queue)) s

/-- Slots of a core that can be bound now, those owned by the queue first. -/
def State.unbound (s : State) (c : Nat) : List Nat :=
  (slotsOfCore c).filter (fun k => (s.slotAt k).bind.isNone && !(s.slotAt k).kept)
def State.bindable (s : State) (t : Task) (c : Nat) : List Nat :=
  let own := fun k => (s.slotAt k).owner == some (t.part, t.decl.queue)
  (s.unbound c).filter own ++ (s.unbound c).filter (fun k => !own k)

/-- The free slots of a core on which the members saved there can be bound: those that the task's queue owns, and in a
started slice any that is free (03_accord R441, R69). -/
def State.resumeSlots (s : State) (t : Task) (c : Nat) : List Nat :=
  if wideGang t then s.bindable t c
  else (slotsOfCore c).filter (fun k => (s.slotAt k).bind.isNone && (s.slotAt k).owner == some (t.part, t.decl.queue))

/-- The partner core of a checked pair stands ready for it, or is held for it (R377). -/
def State.partnerFree (s : State) (t : Task) (c : Nat) : Bool :=
  !t.paired || s.partnerReady t c || (s.coreAt c).pairWith == some t.id

/-- A core can bind the areas that were saved on it: slots of the queue, room in the journal. -/
def State.coreResumes (s : State) (t : Task) (c : Nat) : Bool :=
  let here := t.saves.filter (fun a => a.core == c)
  here.length ≤ (s.resumeSlots t c).length &&
    (s.coreAt c).journal.length + ((here.map (fun a => a.refusedJ.length)).foldl (· + ·) 0) ≤ 64 &&
    s.partnerFree t c

/-- The members of a gang in its slice are bound here; that they are saved is reported anew (03_accord R69, R375). -/
def State.boundSlice (s : State) (id : Nat) : State :=
  s.modPkg (fun p => { p with slices := p.slices.map (fun (x : Slice) =>
    if x.task = id then { x with bound := true, saved := [] } else x) })

/-- A PREEMPTED task may resume on the cores on which it was saved (R441). -/
def State.resumable (s : State) (t : Task) : Bool :=
  t.st == .preempted && !t.parked && !t.saves.isEmpty &&
    (t.saves.map (·.core)).all (fun c => !(s.dieAt (dieOfCore c)).lost && s.dieCode (dieOfCore c) == 0 && s.partnerFree t c)

/-- The slot to which an area of a task is bound. -/
def State.savedSlot (s : State) (id : Nat) (a : SaveArea) : Option Nat :=
  (s.slotsOf id).find? (fun k => !(s.slotAt k).who.secondary && (s.slotAt k).who.j == a.j && (s.slotAt k).who.m == a.m)

/-- The primary core's local memory goes to the partner's at the same offsets (R377). -/
def State.copyLocal (s : State) (c : Nat) : State :=
  let a := lmBase c
  let b := lmBase (partnerCore c)
  let here := fun (x : Nat) => a ≤ x && x < a + Config.lmBytes
  let moved := s.mem.filter (fun e => here e.1)
  let full := (s.full.filter (fun w => here (8 * w))).map (fun w => w + b / 8 - a / 8)
  { s with
    mem := moved.foldl (fun m (e : Nat × Byte) => Memory.write (e.1 + b - a) e.2 m) (s.mem.wipe b Config.lmBytes),
    full := full.foldl (fun l w => insertWord w l) (s.full.filter (fun w => !(b ≤ 8 * w && 8 * w < b + Config.lmBytes))) }

/-- The state that a task takes when it issues: RUNNING, or SPECULATIVE for an ordered task that is not head. -/
def State.startState (s : State) (t : Task) : TaskState := if t.ordered && !s.isHead t then .speculative else .running

/-- Every area of a task is bound, both copies of a checked pair, and its claims are granted again (R374 steps 1 and 2). -/
def State.bindAreas (s : State) (t : Task) : State :=
  let cores := (t.saves.map (·.core)).eraseDups
  let put := fun (secondary : Bool) (s : State) (c : Nat) =>
    let here := t.saves.filter (fun a => a.core == c)
    let ks := if secondary then (slotsOfCore (partnerCore c)).take here.length
      else (s.resumeSlots t c).take here.length
    (here.zip ks).foldl (fun s e => s.bindSaved t e.1 e.2 secondary) s
  let s := cores.foldl (put false) s
  let s := if t.paired then
      cores.foldl (fun s c => (put true ((s.wipeFor t (partnerCore c)).copyLocal c) c).modCore c (fun c => { c with pairWith := some t.id })) s
    else s
  t.saves.foldl (fun s a =>
    match s.savedSlot t.id a with
    | some k => s.restoreClaim k a.lanes
    | none => s) s

/-- Every claim that the task held comes back with a set of lanes at least (09_vector R217). -/
def State.claimsBack (s : State) (t : Task) : Bool :=
  let s' := s.bindAreas t
  t.saves.all (fun a => a.lanes == 0 || (s'.savedSlot t.id a).any (fun k => (s'.slotAt k).claim.isSome))

def State.canResume (s : State) (t : Task) : Bool :=
  s.resumable t && ((t.saves.map (·.core)).eraseDups).all (s.coreResumes t) &&
    (t.saves.all (fun a => a.lanes == 0) || s.claimsBack t)

/-- Every area is bound; then the slots go on. -/
def State.resumeTask (s : State) (id : Nat) : State :=
  let s := s.liftAreas id
  let t := s.taskAt id
  let s := ((s.bindAreas t).modTask id (fun t => { t with st := s.startState t, saves := [], boundAt := s.cycle })).boundSlice id
  let s := t.saves.foldl (fun s a =>
    match s.savedSlot id a with
    | some k => s.resumeSlot a k
    | none => s) s
  s.restoreCopies (t.saves.flatMap (fun a => a.copies))

end Machine
end Sys2Proof
end

