-- ==== Sys2Proof/Machine/Pair.lean ====
section
/-!
DEFINITION. Checked pairs (15_interrupts R376 to R380): `PAIR` and `UNPAIR`, the items that the two copies produce, their
comparison, and the delivery of a matched item's result to both copies.
-/
namespace Sys2Proof
namespace Machine

/-! ## Items -/

/-- What an item is compared by: its source registers and of how many bytes each (8 where no width is given), whether the bit
buffer counts, whether the engine registers count, a vector register that it
stores, and for a plain store the address that decides whether it leaves the core. -/
structure ItemShape where
  srcs : List (Fin 32) := []
  widths : List Nat := []
  bits : Bool := false
  eng : Bool := false
  vreg : Option Nat := none
  addr : Option Word := none

/-- The instructions that are items, or are when their address does not lie in the core's own windows (R378). -/
def itemShape (x : Slot) (i : Instr) : Option ItemShape :=
  match i with
  | .sb d a _ o => some { srcs := [d, a], widths := [1], addr := some (x.reg a + simm 12 o) }
  | .sh d a _ o => some { srcs := [d, a], widths := [2], addr := some (x.reg a + simm 12 o) }
  | .sw d a _ o => some { srcs := [d, a], widths := [4], addr := some (x.reg a + simm 12 o) }
  | .sd d a _ o => some { srcs := [d, a], addr := some (x.reg a + simm 12 o) }
  | .bbemit a _ _ => some { srcs := [a], bits := true, addr := some (x.bb.ptr.setWidth 64) }
  | .bbflush => some { bits := true, addr := some (x.bb.ptr.setWidth 64) }
  | .ldfe _ a _ _ _ | .feget _ a _ _ | .rld _ a _ _ _ | .acq _ a _ | .xrnd _ a _ _ _ => some { srcs := [a] }
  | .sdfe d a _ _ _ | .feset d a _ _ | .rel d a _ => some { srcs := [d, a] }
  | .amoadd _ a b _ _ w | .amoswap _ a b _ _ w | .amoand _ a b _ _ w | .amoor _ a b _ _ w | .amoxor _ a b _ _ w
  | .amomin _ a b _ _ w | .amomax _ a b _ _ w | .amominu _ a b _ _ w | .amomaxu _ a b _ _ w | .amofadd _ a b _ _ w =>
    some { srcs := [b, a], widths := [amoWidth w] }
  | .amocas d a b _ _ w => some { srcs := [d, b, a], widths := [amoWidth w, amoWidth w] }
  | .ramo d a b _ _ w f =>
    if f.val = 2 then some { srcs := [d, b, a], widths := [amoWidth w, amoWidth w] }
    else some { srcs := [b, a], widths := [amoWidth w] }
  | .rst a b _ _ w => some { srcs := [b, a], widths := [remoteWidth w.val] }
  | .rstfe a b _ _ _ | .xacc a b _ _ _ => some { srcs := [a, b] }
  | .xclr a _ => some { srcs := [a] }
  | .vst d a _ => some { srcs := [a], vreg := some d.val }
  | .vsts d a b _ _ => some { srcs := [a, b], vreg := some d.val }
  | .vsct d a _ _ => some { srcs := [a], vreg := some d.val }
  | .vmaxx _ a => some { vreg := some a.val }
  | .vclaim _ a _ | .vreneg _ a _ => some { srcs := [a] }
  | .vrel => some {}
  | .vchain a _ => some { srcs := [a], eng := true }
  | .mcfg _ a | .mtile _ _ a | .mjoin _ _ a | .ccancel _ _ a => some { srcs := [a], eng := true }
  | .mldb _ _ a b | .mlda _ _ a b | .mm16 _ _ a b | .mzero _ _ a b | .mstc _ _ a b | .mprog _ a b | .mgv _ _ a b
  | .mgvb _ _ a b | .mcbt _ _ a b | .send _ _ a b | .sendx _ _ a b | .dget _ _ a b | .dgetl _ _ a b | .darith _ _ a b
  | .xreq _ _ a b => some { srcs := [a, b], eng := true }
  | .cfollow _ _ a b | .cquery _ _ a b | .xpoll _ _ a b | .xres _ _ a b => some { srcs := [a, b] }
  | .csrw _ a c => if c.val = 6 then some { srcs := [a] } else none
  | .spawn _ a | .cdopen _ a | .cdpres _ a _ | .cdclose _ a | .rcommit _ a _ | .aswap _ a _ _ => some { srcs := [a] }
  | .tdone _ => some {}
  | .unpair _ => some {}
  | _ => none

/-- The plain store stays within the core. -/
def State.staysInside (s : State) (k : Nat) (va : Word) : Bool :=
  match s.translate (dieOfSlot k) (s.asidOf k) va.toNat 1 with
  | some (_, a) => (s.homeFor k a).own k .lm || (s.homeFor k a).own k .tbl
  | none => true

/-- The operands of the current slot's item; none where the instruction is no item, or has a source that is not full. -/
def State.itemOperands (s : State) (i : Instr) : Option (List Word) :=
  let x := s.curSlot
  match itemShape x i with
  | none => none
  | some sh =>
    if !(sh.srcs.all x.ready) || sh.addr.any (s.staysInside s.cur) then none
    else
      let word := fun (r : Fin 32) (n : Nat) => BitVec.ofNat 64 ((x.reg r).toNat % 2 ^ (8 * n))
      let regs := (sh.srcs.zip (sh.widths ++ List.replicate sh.srcs.length 8)).map (fun e => word e.1 e.2)
      let bits := if sh.bits then
          [x.bb.win.setWidth 64, (x.bb.win >>> 64).setWidth 64, BitVec.ofNat 64 x.bb.cnt, x.bb.ptr.setWidth 64]
        else []
      let eng := if sh.eng then x.eng.map (·.2) else []
      let lanes := match sh.vreg with
        | some v => (x.vreg.filter (fun e => e.1 / 128 == v)).map (fun e => e.2.setWidth 64)
        | none => []
      some (regs ++ bits ++ eng ++ lanes)

/-- The current slot of a checked pair comes to its instruction: an item is kept for comparison and its copy waits; the
primary goes on with one that has been matched. None: the instruction executes. -/
def State.pairGate (s : State) (i : Instr) : Option State :=
  let k := s.cur
  let b := s.curSlot.who
  if (s.twin k).isNone then none
  else match s.itemOperands i with
    | none => none
    | some ops =>
      let c := s.pairCore k
      match (s.coreAt c).items.find? (fun t => t.j == b.j && t.secondary == b.secondary) with
      | some t => if t.matched && !b.secondary then none else some s.bubble
      | none =>
        let new : PairItem :=
          { j := b.j, secondary := b.secondary, word := (encode i).getD 0, operands := ops, before := s.curSlot, since := s.now }
        let other := (s.coreAt c).items.any (fun t => t.j == b.j && t.secondary != b.secondary)
        let s := s.modCore c (fun c => { c with items := c.items ++ [new] })
        let s := s.modCur (fun x => { x.bubble with hold := some .pairItem })
        some (if other then s.push (.pairItemCompare b.task b.j) else s.after (acNs 65536) (.pairItemTimeout b.task b.j))

/-! ## Before a head's synchronising instruction -/

/-- The instructions of 01_work R23, before which an ordered head's buffered lines are written where they belong: what they
order or do reaches memory past the write buffer. -/
def headOnly (i : Instr) : Bool :=
  match i with
  | .ldfe _ _ _ m _ | .sdfe _ _ _ m _ => m.val != 0
  | .feset .. | .rld .. | .rst .. | .rstfe .. | .ramo .. | .xclr .. | .xacc .. | .xrnd ..
  | .amoadd .. | .amoswap .. | .amocas .. | .amoand .. | .amoor .. | .amoxor .. | .amomin .. | .amomax .. | .amominu ..
  | .amomaxu .. | .amofadd ..
  | .acq .. | .rel .. | .fence .. | .qfence .. | .bind .. | .cwb ..
  | .svc .. | .cdopen .. | .cdpres .. | .cdclose .. | .pair .. | .unpair .. | .rcommit .. | .aswap .. | .spawn ..
  | .send .. | .sendx .. | .dget .. | .dgetl .. | .darith .. | .cfollow .. | .cquery .. | .ccancel .. | .mgv .. | .mgvb .. =>
    true
  | _ => false

/-- A task that has become head still has lines in the write buffer, and comes to such an instruction: they are written first
(13_consistency R337, R338, R344). A refused one raises the write-back trap (08_memory_ops R438); one that finds no journal
entry is tried again. None: the instruction goes on. -/
def State.publishGate (s : State) (i : Instr) : Option State :=
  let t := s.slotTask s.cur
  if !headOnly i || s.speculative s.cur || (s.ownSpec t.id).isEmpty then none
  else if (s.ownSpec t.id).any (fun e => s.heldLine e.2.line) then some s.stay
  else
    let s := s.publish t.id
    match (s.ownSpec t.id).find? (fun e => s.publishCode e.2 != 0) with
    | some e => some (s.trap 0x1A (BitVec.ofNat 64 (s.publishCode e.2 * 2 ^ 56 + e.2.line % 2 ^ 55)))
    | none => some s.stay

/-- What stands before the execution of an instruction: the port of a checked pair, and the write buffer of a head. -/
def State.issueGate (s : State) (i : Instr) : Option State :=
  match s.pairGate i with
  | some s' => some s'
  | none => s.publishGate i

/-! ## Comparison (R378, R379) -/

/-- The core of a checked pair's primary. -/
def State.primaryCore (s : State) (task : Nat) : Option Nat :=
  (s.cores.find? (fun c => c.2.pairWith == some task)).map (·.1)

/-- A pair mismatch: both copies issue no more, the unmatched items are discarded, and the task has a contained fault of class
FC-PAIR. -/
def State.pairMismatch (s : State) (task : Nat) : State :=
  let s := s.modSlots (s.slotsOf task) (fun x => { x with stopped := true })
  let s := match s.primaryCore task with
    | some c => s.modCore c (fun c => { c with items := c.items.filter (·.matched) })
    | none => s
  (s.note (.reported 2 task)).containedFault task 2

/-- The items of a slot index are compared; the primary performs one that agrees. -/
def execPairItemCompare (task slot : Nat) (s : State) : Out :=
  match s.primaryCore task with
  | none => .next s
  | some c =>
    match (s.coreAt c).items.filter (fun t => t.j == slot && !t.matched) with
    | [t, u] =>
      if t.word ≠ u.word ∨ t.operands ≠ u.operands then .next (s.pairMismatch task)
      else
        let s := s.modCore c (fun c => { c with items := c.items.map (fun (t : PairItem) =>
          if t.j = slot then { t with matched := true } else t) })
        .next (s.modSlots (s.slotsOf task) (fun x =>
          if x.who.j = slot ∧ !x.who.secondary ∧ x.hold = some .pairItem then { x with hold := none } else x))
    | _ => .next s

/-- The task's time stands still: it settles for a save, its translations are held, or a die of the pair is lost (R379; log
entry 67). -/
def State.pairPaused (s : State) (task c : Nat) : Bool :=
  (s.taskAt task).saving.isSome || s.translationHeld (s.taskAt task).asid || (s.dieAt (dieOfCore c)).lost

/-- An item that has waited 65,536 ac of unpaused time for its partner; a time in which the task was paused starts again. -/
def execPairItemTimeout (task slot : Nat) (s : State) : Out :=
  match s.primaryCore task with
  | none => .next s
  | some c =>
    if !(s.coreAt c).items.any (fun t => t.j == slot && !t.matched && t.since + acNs 65536 ≤ s.now) ||
        !(s.taskAt task).st.begun then .next s
    else if s.pairPaused task c then .next (s.after (acNs 65536) (.pairItemTimeout task slot))
    else .next (s.pairMismatch task)

/-- The result of a matched item of the current slot goes to the secondary copy. -/
def State.pairResult (s : State) : State := s.pairResultOf s.cur

/-! ## PAIR and UNPAIR -/

/-- The status of `PAIR`, 0 where the task becomes a checked pair (R377). -/
def State.pairStatus (s : State) (k : Nat) : Nat :=
  let t := s.slotTask k
  let die := dieOfSlot k
  if 1 < t.decl.gang then 1
  else if s.cores.any (fun c => c.2.mat.owner.any (fun b => b.task == t.id)) || s.groups.any (fun g => g.task == t.id) then 2
  else if s.dieCode die ≠ 0 || !bitAt t.diemask die then 3
  else 0

def execPair (d : Fin 32) (s : State) : Out :=
  s.gated [] d true (fun s =>
    let t := s.slotTask s.cur
    let code := s.pairStatus s.cur
    if t.paired then (s.setReg d 1).retire
    else if code ≠ 0 then (s.setReg d (BitVec.ofNat 64 (2 ^ 63 + code))).retire
    else (((s.setReg d 0).retire).modTask t.id (fun t => { t with paired := true })).after 1 (.preemptionRequest t.id))

/-- `UNPAIR`: held until every earlier item is matched and performed; then the secondary copy is discarded, and its slots
and its core are free at the next rotation boundary (R380). Items that follow it are the primary's alone. -/
def execUnpair (d : Fin 32) (s : State) : Out :=
  s.gated [] d true (fun s =>
    let k := s.cur
    let t := s.slotTask k
    let c := s.pairCore k
    if !t.paired then (s.setReg d 1).retire
    else if !((s.coreAt c).items.takeWhile (fun i => i.j != s.curSlot.who.j)).isEmpty then s.stay
    else
      let s := s.modSlots (s.slotsOf t.id) (fun x =>
        if x.who.secondary then { owner := x.owner, bind := x.bind, stopped := true }
        else if x.hold = some .pairItem then { x with hold := none } else x)
      let s := s.modCore c (fun c => { c with items := [] })
      ((s.modTask t.id (fun t => { t with paired := false })).setReg d 0).retire)

end Machine
end Sys2Proof
end

