-- ==== Sys2Proof/Machine/Place.lean ====
section
/-!
DEFINITION. Placement and slots (01_work R13, R15, R26 to R28; 03_accord R67, R441; 04_placement R96; 17_retire R415): work
lists, the fresh start, the arbiter of a core, load-levelling, and the rotation and balancing boundaries of a die.
-/
namespace Sys2Proof
namespace Machine

/-! ## Placing (R58, R415) -/

/-- Members `m`, `m` + 1, … of a task go to the work lists of cores. -/
def State.placeMembers (s : State) (t : Task) : Nat → List Nat → State
  | _, [] => s
  | m, c :: cs =>
    let s := (s.wipeFor t c).modCore c (fun x => { x with work := x.work ++ [(t.id, m)] })
    let s := s.modTask t.id (fun t => { t with cores := FMap.set m c t.cores })
    State.placeMembers s t (m + 1) cs

/-- An applied dispatch: the task is PLACED; a checked pair takes its partner core. -/
def State.placeTask (s : State) (id m : Nat) (cores : List Nat) : State :=
  let t := s.taskAt id
  let s := (s.modTask id (fun t => { t with st := .placed, cores := [] })).placeMembers t m cores
  if t.paired then cores.foldl (fun s c =>
      (s.wipeFor t (partnerCore c)).modCore c (fun x => { x with pairWith := some id })) s
  else s

/-! ## Fresh start (R13, R46, R390) -/

/-- The domain at which a task re-enters: the innermost open domain that it opened. -/
def State.reentryOf (s : State) (t : Task) : Option Domain :=
  (t.chain.filterMap (s.findDomain t.job)).find? (fun d => d.opener == some t.id)

/-- A slot at a fresh start, before its tiles. -/
def State.freshSlot (s : State) (t : Task) (j m : Nat) (secondary : Bool) : Slot :=
  let entry := ((s.reentryOf t).map (·.reentry)).getD t.decl.entry
  let x : Slot :=
    { owner := some (t.part, t.decl.queue), bind := some ⟨t.id, j, m, secondary⟩, pc := BitVec.ofNat 64 entry }
  ((x.setReg 1 t.decl.arg).setReg 2 (BitVec.ofNat 64 j)).setReg 3 (BitVec.ofNat 64 m)

/-- The words of the register-window tiles of slot `j`, then those of its start image. -/
def State.startWords (s : State) (t : Task) (j : Nat) : List (Nat × Word) :=
  let tiles := t.tilesIn.zipIdx.flatMap (fun x =>
    if x.1.place = 1 ∧ x.1.offset / 32 = j then itemWords (x.1.offset % 32) (s.stagedNow t x.2) else [])
  tiles ++ (t.image.filter (fun w => w.1 == j)).map (fun w => (w.2.1, w.2.2))

/-- A slot as it starts: fresh, with the words of its tiles and start image; at a re-entry g4 is the number of rollbacks,
whatever a tile or an item has put there (16_recovery R390). -/
def State.startSlot (s : State) (t : Task) (j m : Nat) (secondary : Bool) : Slot :=
  let x := (s.startWords t j).foldl (fun x w => x.setReg (regFin w.1) w.2) (s.freshSlot t j m secondary)
  match s.reentryOf t with
  | some d => x.setReg 4 (BitVec.ofNat 64 d.rollbacks)
  | none => x

/-- The local-memory tiles of a task are copied from staging to a core. -/
def State.copyTiles (s : State) (t : Task) (c : Nat) : State :=
  t.tilesIn.zipIdx.foldl (fun s x =>
    if x.1.place = 0 then s.store (lmBase c + x.1.offset) (s.stagedNow t x.2) else s) s

/-- The lines of a core's L1 leave it, the dirty ones written back first; one whose write-back is refused stays. -/
def State.acquireCore (s : State) (c : Nat) : State :=
  (s.flushWhere c (fun _ => true)).dropClean c (fun _ => true)

/-- Binds member `m` on its core: slot states, tiles, and the acquire that matches the creator's release (06_scalar
R158), on the partner core of a checked pair too. -/
def State.startMember (s : State) (t : Task) (m c : Nat) : State :=
  let ks := (s.bindable t c).take t.decl.slots
  let pair := if t.paired then (slotsOfCore (partnerCore c)).take t.decl.slots else []
  let s := if 2 ≤ t.code then (c :: (if t.paired then [partnerCore c] else [])).foldl State.acquireCore s else s
  let s := s.copyTiles t c
  let s := if t.paired then s.copyLocal c else s
  let put := fun (secondary : Bool) (s : State) (e : Nat × Nat) =>
    s.setSlot e.1 (s.startSlot t e.2 m secondary)
  let s := ks.zipIdx.foldl (put false) s
  let s := pair.zipIdx.foldl (put true) s
  s.modCore c (fun x => { x with work := x.work.filter (fun e => e.1 != t.id) })

/-- All members of a PLACED task are bound at one boundary (R15); the task runs. -/
def State.startTask (s : State) (id : Nat) : State :=
  let t := s.taskAt id
  let s := t.cores.foldl (fun s c => s.startMember t c.1 c.2) s
  (s.modTask id (fun t => { t with st := s.startState t, image := [], attempts := t.attempts + 1, boundAt := s.cycle })).boundSlice id

/-! ## The arbiter (R67) -/

/-- A gang wider than PACKAGE binds only within a slice that has started (R69). -/
def State.sliceOpen (s : State) (t : Task) : Bool :=
  !wideGang t || s.pkg.slices.any (fun x => x.task == t.id && x.started && !x.cancelled)

/-- A PLACED task may be bound; an opener does not re-enter before its domain is restored (R390). -/
def State.mayStart (s : State) (t : Task) : Bool :=
  t.st == .placed && s.sliceOpen t && !(s.findJob t.job).any (fun j => j.parkedFor.isSome) &&
    !(s.domains.any (fun d => d.job == t.job && d.opener == some t.id && d.restoring))

/-- The free slots of a core that are left to a gang: single-core tasks that stand before it on the work list take theirs
first (R67); gangs before it have been bound, or cannot be. -/
def State.slotsLeft (s : State) (t : Task) (c : Nat) : Nat :=
  (((s.coreAt c).work.takeWhile (fun e => e.1 != t.id)).map (fun e => s.taskAt e.1)).foldl (fun n u =>
    if u.decl.gang ≤ 1 ∧ s.mayStart u ∧ u.decl.slots ≤ n then n - u.decl.slots else n) (s.unbound c).length

/-- A PLACED task can be bound at this boundary, a gang with all of its members (R15). -/
def State.canStart (s : State) (t : Task) : Bool :=
  s.mayStart t && t.cores.all (fun c => t.decl.slots ≤ (if t.decl.gang ≤ 1 then (s.unbound c.2).length else s.slotsLeft t c.2))

/-- The dies whose boundaries are taken together: dies of one package have theirs at the same time (R48), so that with a
gang over several dies every core of it can be looked at (R15). -/
def State.bindDies (s : State) (die : Nat) : List Nat :=
  let spans := fun (t : Task) =>
    (t.st == .placed && 1 < t.memberDies.eraseDups.length) ||
    (t.st == .preempted && 1 < ((t.saves.map (fun a => dieOfCore a.core)).eraseDups).length)
  if s.tasks.any spans then s.liveDies.filter (fun d => !(s.dieAt d).lost) else [die]

/-- Gangs in work-list order, which is the same on every core that two of them share (R58): each after those before it. -/
def State.gangOrder (s : State) : Nat → List Task → List Task
  | 0, l => l
  | n + 1, l =>
    let before := fun (u t : Task) => u.id != t.id && t.cores.any (fun c =>
      ((s.coreAt c.2).work.takeWhile (fun e => e.1 != t.id)).any (fun e => e.1 == u.id))
    match l.find? (fun t => !(l.any (fun u => before u t))) with
    | some t => t :: s.gangOrder n (l.filter (fun u => u.id != t.id))
    | none => l

/-- A PLACED task is bound where it can be. -/
def State.tryStart (s : State) (id : Nat) : State := if s.canStart (s.taskAt id) then s.startTask id else s

/-- Step 1 for the PLACED tasks of some dies: the gangs, whose slots on each core are those that the entries before them
leave, then the other entries of each work list in its order. -/
def State.bindPlaced (s : State) (dies : List Nat) : State :=
  let gangs := s.tasks.filter (fun t => 1 < t.decl.gang && s.mayStart t && t.memberDies.all dies.contains)
  let s := (s.gangOrder gangs.length gangs).foldl (fun s t => s.tryStart t.id) s
  let cores := s.cores.filter (fun c => dies.contains (dieOfCore c.1) && !c.2.work.isEmpty)
  (cores.flatMap (fun c => c.2.work.map (·.1))).foldl (fun s id =>
    if (s.taskAt id).decl.gang ≤ 1 then s.tryStart id else s) s

/-- Tasks to be resumed, in the order in which they were pre-empted. -/
def insertSaved (t : Task) : List Task → List Task
  | [] => [t]
  | u :: us => if t.savedAt < u.savedAt then t :: u :: us else u :: insertSaved t us
def State.resumesOn (s : State) (dies : List Nat) : List Task :=
  (s.tasks.filter (fun t => s.resumable t && s.sliceOpen t && t.saves.all (fun a => dies.contains (dieOfCore a.core)))).foldl
    (fun l t => insertSaved t l) []

/-- Step 1 of R67 on a die: PLACED tasks are bound, then resumable ones (R441). -/
def State.bindAll (s : State) (die : Nat) : State :=
  let dies := s.bindDies die
  let s := s.bindPlaced dies
  (s.resumesOn dies).foldl (fun s t => if s.canResume t then s.resumeTask t.id else s) s

/-- Queues of a partition with demand on a core: an unbound PLACED task, a resumable one, or a READY one whose instance
holds the core. -/
def State.demand (s : State) (c : Nat) : List (Nat × Nat) :=
  ((s.tasks.filter (fun t =>
    (t.st == .placed && (s.coreAt c).work.any (fun e => e.1 == t.id)) ||
    (s.resumable t && t.saves.any (fun a => a.core == c)) ||
    (t.st == .ready && !t.parked && instanceCore t.code t.point c))).map (fun t => (t.part, t.decl.queue))).eraseDups

/-- Steps 2 and 3: how many of `n` slots each partition of a rising list gets. -/
def shareSlots (parts : List Nat) (want : Nat → Nat) (ptr n : Nat) : List (Nat × Nat) :=
  let base := parts.foldl (fun (r : List (Nat × Nat) × Nat) p =>
    let k := min (want p) r.2
    (r.1 ++ [(p, k)], r.2 - k)) ([], n)
  let ring := parts.filter (fun p => ptr ≤ p) ++ parts.filter (fun p => p < ptr)
  base.1.map (fun e => (e.1, e.2 + (if ring.isEmpty then 0 else
    base.2 / ring.length + (if ring.idxOf e.1 < base.2 % ring.length then 1 else 0))))

/-- Step 4: how many of `f` slots each queue gets: shares by weight, the rest to the largest remainders. -/
def splitQueues (qs : List Nat) (weight : Nat → Nat) (qptr f : Nat) : List (Nat × Nat) :=
  let sum := (qs.map weight).foldl (· + ·) 0
  let w := fun q => if sum = 0 then 1 else weight q
  let W := if sum = 0 then qs.length else sum
  let before := fun (a b : Nat) =>
    let ra := f * w a % W
    let rb := f * w b % W
    decide (rb < ra) || (ra == rb && decide ((a + 16 - qptr) % 16 < (b + 16 - qptr) % 16))
  let left := f - (qs.map (fun q => f * w q / W)).foldl (· + ·) 0
  qs.map (fun q => (q, f * w q / W + (if (qs.filter (fun x => before x q)).length < left then 1 else 0)))

/-- The partition pointer, which advances by one partition each boundary. -/
def State.partPointer (s : State) : Nat := s.cycle / 16 % 64

/-- The owners that the arbiter gives to `n` unbound slots of a core. -/
def State.newOwners (s : State) (c n : Nat) : List (Nat × Nat) :=
  let die := dieOfCore c
  let dem := s.demand c
  let parts := (List.range 64).filter (fun p => dem.any (fun d => d.1 == p))
  let bound := fun p => (slotsOfCore c).countP (fun k => (s.slotAt k).bind.isSome && (s.slotTask k).part == p)
  (shareSlots parts (fun p => (s.partAt p).cfg.used.share - bound p) s.partPointer n).flatMap (fun e =>
    let qs := (List.range 16).filter (fun q => dem.contains (e.1, q))
    (splitQueues qs (fun q => FMap.get 1 (s.partDie e.1 die).weights q) (s.partDie e.1 die).qptr e.2).flatMap
      (fun q => List.replicate q.2 (e.1, q.1)))

/-- The arbiter of a core at a rotation boundary, steps 2 to 4 of R67: owners; slots kept by a pre-emption decision are
left this once (R58). -/
def State.arbitrate (s : State) (c : Nat) : State :=
  let ks := s.unbound c
  let owners := s.newOwners c ks.length
  let changes := ks.zipIdx.filter (fun k => (s.slotAt k.1).owner != owners[k.2]?)
  let s := changes.foldl (fun s k => s.modSlot k.1 (fun x => { x with owner := owners[k.2]? })) s
  let kept := (slotsOfCore c).filter (fun k => (s.slotAt k).kept)
  let s := s.modSlots kept (fun x => { x with kept := false })
  if changes.isEmpty && kept.isEmpty then s else s.unquietDies [dieOfCore c]

/-! ## Boundaries -/

/-- The slots of a DONE task are free (06_scalar R159), and those of the secondary copy of a pair that has been unpaired
(15_interrupts R380). -/
def State.freeDone (s : State) (die : Nat) : State :=
  let ks := (s.slots.filter (fun e => dieOfSlot e.1 == die && e.2.bind.any (fun b =>
    !((s.taskAt b.task).st == .running || (s.taskAt b.task).st == .speculative) ||
      (b.secondary && !(s.taskAt b.task).paired)))).map (·.1)
  if ks.isEmpty then s
  else
    let ids := (ks.map (fun k => (s.slotTask k).id)).eraseDups
    let s := (ids.foldl State.markLeaving s).modSlots ks (fun x => { owner := x.owner })
    { s.unquietDies [die] with cores := s.cores.map (fun (c : Nat × Core) => (c.1,
      if c.2.pairWith.any ids.contains then { c.2 with pairWith := none, items := [] } else c.2)) }

/-- Dispatch decisions of a die are posed (03_accord R50). -/
def State.poseDispatch (s : State) (die part : Nat) : State :=
  let pending := (s.dieAt die).decisions.any (fun d => d.part == part && d.kind == .dispatch)
  if pending || (s.partDie part die).quiet then s
  else match s.decidingCore part die with
    | none => s
    | some c =>
      (s.modDie die (fun d => { d with decisions := d.decisions ++ [{ kind := .dispatch, part := part, core := c }] })).push
        (.dispatchDecision part die)

/-- Partitions that hold tasks. -/
def State.activeParts (s : State) : List Nat := (s.tasks.map (·.part)).eraseDups

/-- The cores whose arbiters have something to do at a boundary: all of the die, and with no task on the package those that
still have an owner to lose (R67). -/
def State.boundaryCores (s : State) (die : Nat) : List Nat :=
  if s.tasks.isEmpty then
    (coresOfDie die).filter (fun c => s.slots.any (fun k => coreOfSlot k.1 == c && k.2.owner.isSome))
  else coresOfDie die

/-- A partition has a decision in flight on a die (R49, R66). -/
def State.inFlight (s : State) (part die : Nat) : Bool :=
  (s.dieAt die).decisions.any (fun d => d.part == part && d.run.isSome)

/-- Shadow programs that take over at this boundary (R66), ahead of every decision that starts from here on. -/
def State.switches (s : State) (die : Nat) : List Event :=
  ((s.dieAt die).parts.filter (fun p => p.2.shadow.isSome && !s.inFlight p.1 die)).map (fun p => .policySwitch p.1 die)

/-- The save areas of tasks that were saved on a die take what software has written into them, and show what has been
delivered to them (15_interrupts R373; log entry 65). -/
def State.refreshDie (s : State) (die : Nat) : State :=
  ((s.tasks.filter (fun t => t.saves.head?.any (fun a => dieOfCore a.core == die))).map (·.id)).foldl State.refreshAreas s

/-- A rotation boundary of a die (R48, R67): save areas are brought up to date, slots of tasks that are DONE become free, shadow programs take over, tasks are
bound, the arbiters assign owners, and dispatch decisions are posed. -/
def execRotationBoundary (die : Nat) (s : State) : Out :=
  if !s.liveDies.contains die || (s.dieAt die).lost then .next s
  else
    let s := s.refreshDie die
    let s := (s.bindDies die).foldl State.freeDone s
    let s : State := { s with agenda := s.switches die ++ s.agenda }
    let s := s.bindAll die
    let s := (s.boundaryCores die).foldl State.arbitrate s
    .next (s.activeParts.foldl (fun s p => s.poseDispatch die p) s)

/-! ## Load-levelling (04_placement R96) -/

/-- The adjacent cores of a core, in rising number. -/
def adjacentCores (c : Nat) : List Nat :=
  let die := dieOfCore c
  let q := c / 8 % 64
  let i := c % 8
  let rows := Config.clusters die / 8
  let at' := fun (q i : Nat) => die * 512 + q * 8 + i
  let inside := (List.range 8).filter (fun j =>
    (j / 4 == i / 4 && (j % 4 == i % 4 + 1 || i % 4 == j % 4 + 1)) || (j % 4 == i % 4 && j / 4 != i / 4))
  let near := (List.range (rows * 8)).filter (fun r =>
    (r / 8 == q / 8 && (r % 8 == q % 8 + 1 || q % 8 == r % 8 + 1)) ||
    (r % 8 == q % 8 && (r / 8 == q / 8 + 1 || q / 8 == r / 8 + 1)))
  let all := inside.map (at' q) ++ near.map (fun r => at' r i)
  (coresOfDie die).filter all.contains

/-- Core `c` moves its youngest entry that may move to the least loaded adjacent core. Where that entry fits nowhere, no
older one is tried: the rule does not say (log entry 110). -/
def State.level (s : State) (c : Nat) : State :=
  let u := fun x => (s.coreAt x).work.length
  if u c < 2 then s
  else match ((s.coreAt c).work.filter (fun e => (s.taskAt e.1).decl.gang ≤ 1 && !(s.taskAt e.1).paired)).getLast? with
    | none => s
    | some e =>
      let t := s.taskAt e.1
      let ok := (adjacentCores c).filter (fun n => u n + 2 ≤ u c && u n < 64 && s.mayHold t n && !s.coreHeld n)
      let best := ok.foldl (fun b n => match b with
        | some m => if u n < u m then some n else some m
        | none => some n) none
      match best with
      | none => s
      | some n =>
        let s := s.wipeFor t n
        let s := s.modCore c (fun x => { x with work := x.work.filter (fun w => w.1 != e.1) })
        let s := s.modCore n (fun x => { x with work := x.work ++ [e] })
        s.modTask e.1 (fun t => { t with cores := [(0, n)] })

/-! ## Share enforcement (01_work R28) -/

/-- Pre-empts, youngest first, running tasks of partitions beyond their share until `need` slots are free; the number is
that of the slots that are free or being freed. -/
def State.enforce (s : State) (c part need : Nat) : Nat → Nat → State × Nat
  | 0, got => (s, got)
  | n + 1, got =>
    if need ≤ got then (s, got)
    else
      let bound := fun p => (slotsOfCore c).countP (fun k => (s.slotAt k).bind.isSome && !(s.slotAt k).stopped && (s.slotTask k).part == p)
      let here := (s.tasks.filter (fun t => t.part != part && (t.st == .running || t.st == .speculative) && t.saving.isNone &&
        (s.partAt t.part).cfg.used.share < bound t.part && (s.slotsOf t.id).any (fun k => coreOfSlot k == c)))
      match youngest here with
      | none => (s, got)
      | some t =>
        let freed := (s.slotsOf t.id).countP (fun k => coreOfSlot k == c)
        State.enforce (s.requestPreempt t.id) c part need n (got + freed)

/-- The shares of the partitions with PLACED tasks on a core: what is free, or being freed by a pre-emption that settles,
goes to one partition after another. -/
def State.enforceCore (s : State) (c : Nat) : State :=
  let waiting := ((s.coreAt c).work.map (fun e => (s.taskAt e.1).part)).eraseDups
  let free := (s.unbound c).length + (slotsOfCore c).countP (fun k => (s.slotAt k).bind.isSome && (s.slotAt k).stopped)
  (waiting.foldl (fun (r : State × Nat) p =>
    let s := r.1
    let bound := (slotsOfCore c).countP (fun k => (s.slotAt k).bind.isSome && (s.slotTask k).part == p)
    let asked := ((s.coreAt c).work.filter (fun e => (s.taskAt e.1).part == p)).map (fun e => (s.taskAt e.1).decl.slots)
    let goal := min ((s.partAt p).cfg.used.share - bound) (asked.foldl (· + ·) 0)
    let e := s.enforce c p goal 16 r.2
    (e.1, e.2 - goal)) (s, free)).1

/-! ## Pre-emption decisions (03_accord R50) -/

/-- Queues whose ready head has waited a whole interval and finds no core of the die with enough free slots. -/
def State.starved (s : State) (part die q : Nat) : Bool :=
  match (s.readyTasks part q).head? with
  | none => false
  | some t =>
    let cores := (coresOfDie die).filter (s.mayHold t)
    !cores.isEmpty && t.readyCycle + (s.dieAt die).interval ≤ s.cycle && !(cores.any (fun c => t.decl.slots ≤ (s.ownedFree part q c).length))

/-- The waiting queue of a pre-emption decision: highest priority, then the earliest head, then nearest QPTR. -/
def State.waitingQueue (s : State) (part die : Nat) : Option Nat :=
  let prio := fun q => (s.partAt part).pol.prio / 2 ^ (4 * q) % 16
  let since := fun q => ((s.readyTasks part q).head?.map (fun t => t.readyAt)).getD 0
  (((List.range 16).map (fun i => ((s.partDie part die).qptr + i) % 16)).filter (s.starved part die)).foldl
    (fun best q => match best with
      | some b => if prio b < prio q || (prio b == prio q && since q < since b) then some q else some b
      | none => some q) none

def State.posePreempt (s : State) (die part : Nat) : State :=
  match s.waitingQueue part die with
  | none => s
  | some q =>
    (s.modDie die (fun d => { d with decisions := d.decisions ++ [{ kind := .preempt, part := part, candq := q }] })).push
      (.preemptionDecision part die)

/-- A balancing-interval boundary of a die (R96, 01_work R28, R373): swapped tasks are brought back, entries are moved,
shares are enforced, and pre-emption decisions are posed. -/
def execBalancingInterval (die : Nat) (s : State) : Out :=
  if !s.liveDies.contains die || (s.dieAt die).lost then .next s
  else
    let back := s.tasks.filter (fun t => t.st == .swapped && !t.parked && t.saves.any (fun a => dieOfCore a.core == die))
    let s := s.pushAll (back.map (fun t => .swapIn t.id))
    if s.tasks.isEmpty then .next s
    else
      let s := (coresOfDie die).foldl State.level s
      let s := (coresOfDie die).foldl State.enforceCore s
      .next (s.activeParts.foldl (fun s p => s.posePreempt die p) s)

end Machine
end Sys2Proof
end

