-- ==== Sys2Proof/Machine/Ranges.lean ====
section
/-!
DEFINITION. Range commits (04_placement R91 to R95): images and their checks, `RCOMMIT` and the host's range commit block,
the drain and the switch; and readable memory as the X-dies read it.
-/
namespace Sys2Proof
namespace Machine

/-! ## Readable memory (R94) -/

/-- A read of an image that waits: its chunk is being rebuilt, or its die's loss is not yet decided (16_recovery R399, R404). -/
def State.imageWaits (s : State) (spa n : Nat) : Bool :=
  let h := s.home spa
  !h.outside && ((s.dieAt h.die).lost && s.dieCode h.die == 0 || (cutAt 256 spa n).any (fun c => (s.lostChunk c.1).isSome))

/-- The bytes of an image that an X-die reads at its SPA; none where it is not readable memory. -/
def State.imageAt (s : State) (spa n : Nat) : Option (List Byte) :=
  let h := s.home spa
  let l := s.home (spa + n - 1)
  let oneHome := h.win == l.win && h.die == l.die && (h.win == .dram || (h.win == .lm && h.coreNum == l.coreNum))
  if n = 0 ∨ !oneHome then none
  else if h.outside then
    if s.outsideCode spa spa = 0 then
      some ((List.range n).map (fun i => BitVec.ofNat 8 (Config.freeWord s.freeCtr (spa + i)).toNat))
    else none
  else if s.dieCode h.die ≠ 0 || s.isBad h.key n || (cutAt 256 spa n).any (fun c => s.unrecoverable c.1) then none
  else some (Memory.readList (s.under h n).mem h.key n)

/-! ## Images (Tables 4-6, 4-11) -/

def rangeOf (n : Nat) : Range :=
  { sync := fieldAt n 208 48, ecg := fieldAt n 200 8, planes := fieldAt n 197 3, keep := bitAt n 196, tblfmt := bitAt n 195,
    blk := fieldAt n 193 2, planar := bitAt n 192, efmt := fieldAt n 188 4, peer := fieldAt n 178 10, key := fieldAt n 168 10,
    enc := bitAt n 167, dacc := bitAt n 166, dsrc := bitAt n 165, x := bitAt n 164, w := bitAt n 163, r := bitAt n 162,
    valid := bitAt n 161, peeren := bitAt n 160, phys := fieldAt n 104 44, limit := fieldAt n 64 32, base := fieldAt n 0 32 }

def rangeReserved (n : Nat) : Bool := fieldAt n 148 12 != 0 || fieldAt n 96 8 != 0 || fieldAt n 32 32 != 0

/-- Code 0x02: reserved fields, limits and formats. -/
def rangeBadField (n : Nat) : Bool :=
  let e := rangeOf n
  let tap := e.planar && (e.efmt == 4 || e.efmt == 5)
  rangeReserved n || decide (e.limit < e.base) || 11 ≤ e.efmt || e.blk == 3 ||
    (e.planes != 0 && (!tap || (if e.efmt = 4 then 8 else 6) ≤ e.planes))

def Range.overlaps (e f : Range) : Bool := e.base ≤ f.limit && f.base ≤ e.limit

/-- Code 0x04: where the physical extent lies. -/
def Range.badPhys (e : Range) : Bool :=
  let a := e.phys * 65536
  let z := a + (e.limit + 1 - e.base) * 65536 - 1
  let d := spaDie a
  2 ≤ spaClass a || !Config.isComputeDie d || (!spaFabric a && spaPkg a != 0) ||
    (if spaClass a = 0 then a / 2 ^ 40 != z / 2 ^ 40 || Config.dramBytes d ≤ spaOffset z else a / 2 ^ 26 != z / 2 ^ 26)

/-- A group that the package defines (12_copy R322). -/
def State.groupDefined (s : State) (g : Nat) : Bool := s.dies.any (fun d => (FMap.get {} d.2.ecg g).valid)

/-- The first valid entry of an image that fails a test. -/
def firstFailing (es : List (Nat × Nat)) (bad : Nat → Nat → Bool) : Option Nat :=
  (es.find? (fun e => (rangeOf e.1).valid && bad e.2 e.1)).map (·.2)

/-- A key is held. The service processors load keys at any time (R88), which no step of this package shows: of a key that no
commit has yet used it is open whether it is loaded (log entry 96). -/
def State.keyHeld (s : State) (key : Nat) : Bool := s.pkg.keys.contains key || Config.freeCode s.freeCtr key % 2 == 0

/-- The keys of an accepted set are held from then on, until a change of the life cycle zeroises them (17_retire R414). -/
def State.holdKeys (s : State) (set : List Range) : State :=
  s.modPkg (fun p => { p with keys := (set.filter (fun e => e.valid && e.enc)).foldl (fun ks e => insertWord e.key ks) p.keys })

/-- The checks of Table 4-11 in code order: code and first failing entry, (0, 0) where all pass. An entry overlaps that
shares a unit with an earlier one. -/
def State.checkImage (s : State) (image : List Nat) : Nat × Nat :=
  let es := image.zipIdx
  let tests : List (Nat × (Nat → Nat → Bool)) :=
    [(2, fun _ n => rangeBadField n),
     (3, fun i n => (image.take i).any (fun m => (rangeOf m).valid && (rangeOf m).overlaps (rangeOf n))),
     (4, fun _ n => (rangeOf n).badPhys),
     (5, fun _ n => (rangeOf n).enc && !s.keyHeld (rangeOf n).key),
     (6, fun _ n => (rangeOf n).ecg != 0 && !s.groupDefined (rangeOf n).ecg)]
  (tests.findSome? (fun t => (firstFailing es t.2).map (fun i => (t.1, i)))).getD (0, 0)

/-- A refused status (R91). -/
def refusedStatus (code idx : Nat) : Word := BitVec.ofNat 64 (2 ^ 63 + idx * 2 ^ 16 + code)

/-- The entries of `n` words of 256 bits. -/
def entriesIn (image n : Nat) : List Nat := (List.range n).map (fun i => image / 2 ^ (256 * i) % 2 ^ 256)

/-! ## Stage and drain (R93, R94) -/

/-- The first commit of the list asks every die for its report. Copy commands issued before the hold keep the set in
force for their translations. -/
def State.startCommit (s : State) : State :=
  match s.pkg.commits with
  | [] => s
  | c :: _ =>
    let s : State := { s with cmds := s.cmds.map (fun (x : Cmd) =>
      if x.asid = c.asid ∧ x.set.isNone then { x with set := some (s.rangesOf (dieOfCore x.core) c.asid) } else x) }
    s.pushAll (s.liveDies.map (fun d => .rangeCommitDrainReport d))

/-- An accepted commit takes its place behind those of the package. -/
def State.enterCommit (s : State) (c : Commit) : State :=
  let first := s.pkg.commits.isEmpty
  let s := (s.holdKeys c.set).modPkg (fun p => { p with commits := p.commits ++ [c] })
  if first then s.startCommit else s

/-- The address space's control word on a die (Table 4-9). -/
def State.asidCtl (s : State) (die asid : Nat) : AsidCtl := FMap.get {} (s.dieAt die).asids asid

/-- `RCOMMIT` (R91): checked, then held until the switch. -/
def execRcommit (d a : Fin 32) (n : Fin 64) (s : State) : Out :=
  s.gated [(a, false)] d true (fun s =>
    let k := s.cur
    let v := s.reg a
    let asid := s.asidOf k
    if v.toNat % 32 ≠ 0 then s.trap 0x08 v
    else s.withGot (s.readBlock k v (4 * (n.val + 1))) (fun s img =>
      let image := entriesIn img (n.val + 1)
      let r := s.checkImage image
      if !(s.asidCtl (dieOfSlot k) asid).taskrc then (s.setReg d (refusedStatus 1 0)).retire
      else if r.1 ≠ 0 then (s.setReg d (refusedStatus r.1 r.2)).retire
      else (s.modCur (fun x => x.hang .commit)).enterCommit { asid := asid, set := image.map rangeOf, slot := some (k, d) }))

/-- The range commit block of an X-die, and its result. -/
def State.rangeBlock (s : State) (xdie : Nat) : RangeBlock := FMap.get {} s.pkg.rangeBlocks xdie
def State.modRangeBlock (s : State) (xdie : Nat) (f : RangeBlock → RangeBlock) : State :=
  s.modPkg (fun p => { p with rangeBlocks := FMap.set xdie (f (FMap.get {} p.rangeBlocks xdie)) p.rangeBlocks })

/-- Writing 1 to GO (R94). TASKRC is not consulted. An image whose read waits keeps the block busy. -/
def execGo (xdie : Nat) (s : State) : Out :=
  let b := s.rangeBlock xdie
  let done := fun (w : Word) => s.modRangeBlock xdie (fun b => { b with status := w, busy := false, reading := false })
  if (b.busy && !b.reading) || !(xdie == 12 || xdie == 13) then .next s
  else if b.image % 32 = 0 ∧ s.imageWaits b.image (32 * (b.nm1 + 1)) then
    .next ((s.modRangeBlock xdie (fun b => { b with busy := true, reading := true })).after (acNs 4096) (.go xdie))
  else match if b.image % 32 = 0 then s.imageAt b.image (32 * (b.nm1 + 1)) else none with
    | none => .next (done (refusedStatus 7 0))
    | some bs =>
      let image := entriesIn (leNat bs) (b.nm1 + 1)
      let r := s.checkImage image
      if r.1 ≠ 0 then .next (done (refusedStatus r.1 r.2))
      else .next ((s.modRangeBlock xdie (fun b => { b with busy := true, reading := false })).enterCommit
        { asid := b.asid, set := image.map rangeOf, host := some xdie })

/-- A box that has entered a list at its target counts as performed (R93): held at an ORDERED bank, or waiting for a
register. -/
def Box.entered (b : Box) : Bool := b.held || b.waitsAt.isSome

/-- A copy command of an address space, issued before the hold, still has boxes that are not performed: the drain waits for
them all, without bound, whatever the command itself waits for, the resume of its task included. -/
def State.cmdUndrained (s : State) (die asid : Nat) (c : Cmd) : Bool :=
  c.asid == asid && dieOfCore c.core == die && c.set.isSome &&
    !(c.prepared && c.nbox ≤ c.next && (s.boxes.filter (fun b => b.cmd == c.id)).all Box.entered)

/-- Accesses of an address space on a die that were translated and are not yet performed: messages on their way, boxes,
line fills, and copy commands issued before the hold (R93). An access in a retry list counts as performed. -/
def State.undrained (s : State) (die asid : Nat) : Bool :=
  s.msgs.any (fun m => m.asid == asid && dieOfCore m.core == die && m.st == .sent) ||
  s.boxes.any (fun b => b.asid == asid && dieOfCore b.core == die && !b.entered) ||
  s.cmds.any (s.cmdUndrained die asid) ||
  s.slots.any (fun e => dieOfSlot e.1 == die && s.asidOf e.1 == asid && (match e.2.hold with
    | some (.fill ..) => true
    | _ => false)) ||
  s.clusters.any (fun q => q.1 / 64 == die && q.2.merges.any (fun m => m.lines.any (fun l =>
    match l.2 with
    | .icacheFill _ a _ => a == asid
    | _ => false)))

/-- A die looks at its drain and reports once; the latest report of all fixes the switch time. -/
def execRangeCommitDrainReport (die : Nat) (s : State) : Out :=
  match s.pkg.commits with
  | [] => .next s
  | c :: rest =>
    if c.reported.contains die || c.switchAt.isSome then .next s
    else if s.undrained die c.asid then .next (s.after (acNs 16) (.rangeCommitDrainReport die))
    else
      let reported := c.reported ++ [die]
      let all := s.liveDies.all reported.contains
      let t := s.now + 2000
      let c : Commit := { c with reported := reported, latest := s.now, switchAt := if all then some t else none }
      let s := s.modPkg (fun p => { p with commits := c :: rest })
      .next (if all then s.after 2000 .rangeCommitSwitch else s)

/-! ## The switch (R93) -/

/-- The new set of a die, and its next version. -/
def Die.install (d : Die) (c : Commit) : Die :=
  let old := FMap.get {} d.asids c.asid
  { d with
    ranges := c.set.zipIdx.foldl (fun m e => FMap.set (c.asid * 64 + e.2) e.1 m) (d.ranges.filter (fun e => e.1 / 64 != c.asid)),
    asids := FMap.set c.asid { old with ver := (old.ver + 1) % 2 ^ 16 } d.asids }

/-- At the switch time every die installs the set; codebook tags of contexts of the address space become none
(11_grouped R291), its instruction lines are invalidated and unpinned (05_encoding R125), the result reaches the issuer, and the next commit begins. -/
def execRangeCommitSwitch (s : State) : Out :=
  match s.pkg.commits with
  | [] => .next s
  | c :: rest =>
    if c.switchAt.isNone then .next s
    else
      let s := (List.range 12).foldl (fun s d => s.modDie d (fun d => d.install c)) s
      let s : State := { s with cores := s.cores.map (fun (e : Nat × Core) => (e.1,
        let core := { e.2 with icache := e.2.icache.filter (fun l => l.asid != c.asid) }
        if core.mat.owner.any (fun b => (s.taskAt b.task).asid == c.asid) then { core with tags := [] } else core)) }
      let ver := BitVec.ofNat 64 (s.asidCtl 0 c.asid).ver
      let s := s.modPkg (fun p => { p with commits := rest })
      let s := match c.host with
        | some x => s.modRangeBlock x (fun b => { b with status := ver, busy := false })
        | none => s
      let s := match c.slot with
        | some (k, r) =>
          if (s.slotAt k).hold = some Hold.commit then s.modSlot k (fun x => (x.setReg r ver).finish) else s
        | none => s
      .next s.startCommit

end Machine
end Sys2Proof
end

