-- ==== Sys2Proof/Machine/Sched.lean ====
section
/-!
DEFINITION. The decisions of the die schedulers (03_accord R48 to R62), policy staging and switching (R63 to R66), and
gang slices (R69, R70; 15_interrupts R375).
-/
namespace Sys2Proof
namespace Machine

/-! ## Slices (R69) -/

/-- The members that each package of an instance takes, from the home package on. -/
def State.slicePackages (s : State) (t : Task) : List (Nat × Nat × Nat) :=
  let ps := s.instancePackages (t.code)
  let ring := ps.filter (fun p => s.fabric.coord ≤ p) ++ ps.filter (fun p => p < s.fabric.coord)
  let per := (t.decl.gang + ring.length - 1) / max ring.length 1
  (ring.zipIdx.map (fun p => (p.1, p.2 * per, min per (t.decl.gang - p.2 * per)))).filter (fun p => p.2.2 != 0)

def State.findSlice (s : State) (id : Nat) : Option Slice := s.pkg.slices.find? (fun x => x.task == id)
def State.modSlice (s : State) (id : Nat) (f : Slice → Slice) : State :=
  s.modPkg (fun p => { p with slices := p.slices.map (fun x => if x.task = id then f x else x) })

/-- The gang grace and slice length in ns. -/
def State.graceNs (s : State) (part : Nat) : Nat := max (s.partAt part).pol.grace 1 * 1000
def State.gsliceNs (s : State) (part : Nat) : Nat := (s.partAt part).pol.gslice * 1000

/-- An applied dispatch of a gang wider than PACKAGE starts a slice from the home package; a READY gang is PLACED from here
on (R58), and its members find their cores with the request. -/
def State.startSlice (s : State) (id : Nat) : State :=
  let s := s.modTask id (fun t => if t.st = .ready then { t with st := .placed, cores := [] } else t)
  let t := s.taskAt id
  let ps := s.slicePackages t
  let x : Slice :=
    { task := id, home := s.fabric.coord, start := s.now + 20000, packages := ps, wanted := ps.map (·.1),
      grace := s.graceNs t.part, gslice := s.gsliceNs t.part }
  let s := s.modPkg (fun p => { p with slices := p.slices.filter (fun y => y.task != id) ++ [x] })
  let s := s.push (.gangSliceRequest id)
  let s := s.after 20000 (.gangSliceStart id)
  let s := s.after (20000 + x.grace) (.gangSliceCancel id)
  if x.gslice = 0 then s else s.after (20000 + x.gslice) (.gangSliceEnd id)

/-- The first member and the number of members of this package. -/
def Slice.mine (x : Slice) (coord : Nat) : Nat × Nat :=
  ((x.packages.find? (fun p => p.1 == coord)).map (fun p => p.2)).getD (0, 0)

/-- Cores of this package on which the gang's members stand. -/
def Task.memberCores (t : Task) : List Nat := t.cores.map (·.2)

/-- Pre-empts the youngest running tasks of the gang's partition on a core until SLOTS slots are free. -/
def State.freeCore (s : State) (part c need : Nat) : Nat → Nat → State
  | 0, _ => s
  | n + 1, got =>
    if need ≤ got then s
    else match youngest (s.tasks.filter (fun t => t.part == part && (t.st == .running || t.st == .speculative) &&
        t.saving.isNone && (s.slotsOf t.id).any (fun k => coreOfSlot k == c))) with
      | none => s
      | some t =>
        let freed := (s.slotsOf t.id).countP (fun k => coreOfSlot k == c)
        State.freeCore (s.requestPreempt t.id) part c need n (got + freed)

/-- A package receives the slice request: it places its members, from its lowest-numbered core in DIEMASK on, or takes
the cores on which they were saved, and frees slots. -/
def execGangSliceRequest (task : Nat) (s : State) : Out :=
  match s.findSlice task with
  | none => .next s
  | some x =>
    let t := s.taskAt task
    let mine := x.mine s.fabric.coord
    let s := if t.st = .preempted ∧ !t.saves.isEmpty then s
      else if (t.st = .placed ∧ t.cores = []) ∨ t.st = .preempted then
        let cores := ((s.instanceList t).filter (fun c => (s.coreAt c).work.length < 64 && !s.coreHeld c)).take mine.2
        if cores.length = mine.2 then s.placeTask task mine.1 cores else s
      else s
    let t := s.taskAt task
    let cores := if t.saves.isEmpty then t.memberCores else (t.saves.map (·.core)).eraseDups
    .next (cores.foldl (fun s c => s.freeCore t.part c t.decl.slots 16 (s.unbound c).length) s)

/-- This package's members can be bound. -/
def State.sliceFree (s : State) (t : Task) : Bool :=
  let cores := if t.saves.isEmpty then t.memberCores else (t.saves.map (·.core)).eraseDups
  !cores.isEmpty && (t.st == .placed || t.st == .preempted) && cores.all (fun c => t.decl.slots ≤ (s.unbound c).length)

/-- From the start time on, the arbiters of a free package may bind its members, which they do at their first rotation
boundary with the slots still free; a package that is not free looks again at each boundary until T + GRACE. -/
def State.trySlice (s : State) (task : Nat) : State :=
  match s.findSlice task with
  | none => s
  | some x =>
    let t := s.taskAt task
    if x.started || x.cancelled || s.now < x.start then s
    else if s.sliceFree t then s.modSlice task (fun x => { x with started := true })
    else if s.now < x.start + x.grace then s.after (acNs 16) (.gangLateMemberStart task)
    else s

def execGangSliceStart (task : Nat) (s : State) : Out := .next (s.trySlice task)
def execGangLateMemberStart (task : Nat) (s : State) : Out := .next (s.trySlice task)

/-- At T + GRACE: with a package that is not free, this one or another, the slice is cancelled, and the home package
poses GANG-LATE (R69, R70). Whether a package elsewhere is late is outside this package. Members that are not bound leave
PLACED for PREEMPTED, with no core of their own where they have found none; their start image is discarded (02_launch R46).
Members that stand saved here, from before this slice or from now on, count as saved (15_interrupts R375). -/
def execGangSliceCancel (task : Nat) (s : State) : Out :=
  match s.findSlice task with
  | none => .next s
  | some x =>
    let t := s.taskAt task
    let other := x.packages.any (fun p => p.1 != s.fabric.coord && Config.freeCode s.freeCtr p.1 % 2 == 1)
    let waits := t.st == .placed
    let here := waits || t.st == .preempted || t.st == .swapped
    if x.cancelled || s.now < x.start + x.grace || (x.bound && !other) then .next s
    else
      let s := s.modSlice task (fun x => { x with cancelled := true })
      let stand := if t.cores.isEmpty then [((x.mine s.fabric.coord).1, (s.instanceList t).headD t.point)] else t.cores
      let s := if waits then
          { (s.modTask task (fun t => { t with st := .preempted, savedAt := s.cycle, image := [], cores := stand })) with
            cores := s.cores.map (fun c => (c.1, { c.2 with work := c.2.work.filter (fun e => e.1 != task) })) }
        else s.requestPreempt task
      let s := if here then s.modSlice task (fun x => { x with saved := s.fabric.coord :: x.saved }) else s
      .next (if x.home = s.fabric.coord then s.poseFault task t.die FaultClass.gangLate.code t.memberDies else s)

/-- At T + GSLICE the members are pre-empted. -/
def execGangSliceEnd (task : Nat) (s : State) : Out :=
  match s.findSlice task with
  | none => .next s
  | some x =>
    .next (if x.cancelled || x.gslice = 0 || s.now < x.start + x.gslice then s else s.requestPreempt task)

/-- A package reports its members saved (15_interrupts R375). -/
def execGangMembersSaved (task pkg : Nat) (s : State) : Out :=
  .next ((s.modSlice task (fun x => { x with
    saved := if x.saved.contains pkg then x.saved else pkg :: x.saved })).unquietPart (s.taskAt task).part)

/-! ## Applying decisions (R57, R58) -/

/-- The dispatch of a task from core `c` onto `cores` can still be carried out: it is still a head of its queue, and the
slots have not been taken. -/
def State.dispatchable (s : State) (part q id c : Nat) (cores : List Nat) : Bool :=
  (s.headTasks part q).any (fun t => t.id == id) &&
    let t := s.taskAt id
    if wideGang t then s.canPlace t c
    else cores.all (fun x => s.mayHold t x && s.roomy t x) && s.partnerReady t c

/-- A dispatch puts the chosen task on the work lists, and QPTR moves past its queue; one that places nothing leaves the die
quiet (R50). None: it is void. -/
def State.applyDispatch (s : State) (d : Decision) (die : Nat) (r : DecRun) : Option State :=
  match r.task with
  | none => some s
  | some id =>
    if !s.dispatchable d.part r.choice.dqueue id d.core r.cores then none
    else
      let s := s.modPartDie d.part die (fun p => { p with qptr := (r.choice.dqueue + 1) % 16, quiet := false })
      some (if wideGang (s.taskAt id) then s.startSlice id else s.placeTask id 0 r.cores)

/-- A pre-emption takes the youngest task of queue PVICTIM counted in RUNQ; the slots it frees go to the waiting queue. It is
void when that task has left its slots on the die. -/
def State.applyPreempt (s : State) (d : Decision) (die : Nat) (r : DecRun) : Option State :=
  match r.task with
  | none => some s
  | some id =>
    if !((s.runningOn d.part r.choice.pvictim die).any (fun t => t.id == id)) then none
    else some ((s.modTask id (fun t => { t with freeFor := some d.candq })).requestPreempt id)

/-- A task goes to QUEUED for a fresh start: what a parked attempt kept is given up, and inputs that were not all copied
are fetched again (02_launch R440). -/
def State.restart (s : State) (id : Nat) : State :=
  let t := s.taskAt id
  let s := if t.saves.isEmpty then s else s.strip id
  let fetched := fun (i : Nat) => (t.tilesIn[i]?).any (fun (x : Tile) => x.fetch)
  let missing := (List.range t.decl.nin).any (fun i => fetched i && !(t.staged i).resident)
  let kept := if missing then t.staging.filter (fun g => !fetched g.1) else t.staging
  let s := s.modTask id (fun t => { t.unplaced with parked := false, staging := kept })
  s.enqueue id

/-- The requeue of a fault decision (R58). A gang of more than one member cannot be a checked pair: FACTION 1 requeues it
unpaired, where the rule is silent (log entry 109). -/
def State.requeue (s : State) (id : Nat) (pair : Bool) : State :=
  (s.restart id).modTask id (fun t => { t with
    fretry := t.fretry + 1, paired := t.paired || (pair && t.decl.gang ≤ 1) })

/-- The action of a fault decision (R58, R70); void for a task that has been discarded or has left. Of a kill that meets a
commit the commit stands, and the fault is counted against the partition (01_work Table 1-6). -/
def State.applyFault (s : State) (d : Decision) (c : Choice) : State :=
  match s.findTask d.task with
  | none => s
  | some t =>
    let late := d.fcode == FaultClass.gangLate.code
    if t.st = .committed && c.faction == 2 then s.modPart t.part (fun p => { p with killFaults := p.killFaults + 1 })
    else if t.discarded || t.endCode != 0 then s
    else if late then
      if c.faction = 2 then s.kill t.id 1
      else if c.faction = 3 then s.modTask t.id (fun t => { t with parked := true })
      else s.modTask t.id (fun t => { t with fretry := t.fretry + 1 })
    else if t.st ≠ .rolledBack then s
    else if c.faction = 2 then s.kill t.id 1
    else if c.faction = 3 then s.modTask t.id (fun t => { t with parked := true })
    else s.requeue t.id (c.faction == 1)

/-- What a decision that has run does now; none when it is void (R57). -/
def State.carryOut (s : State) (d : Decision) (die : Nat) (r : DecRun) : Option State :=
  match d.kind with
  | .dispatch => s.applyDispatch d die r
  | .preempt => s.applyPreempt d die r
  | .fault => some (s.applyFault d r.choice)

/-! ## Running a decision (R49, R57, R59 to R62) -/

/-- A counted overrun: its cause, index and time; the third of three within 1,064,000 ns disables the policy. LASTIDX has 8
bits: index 256, one past a program of 256 bytecodes, is kept as 0 (log entry 109). -/
def Policy.count (p : Policy) (cause idx now : Nat) : Policy :=
  let three := (p.stamps ++ [now])
  let last := three.drop (three.length - 3)
  { p with
    overruns := min (p.overruns + 1) 65535, lastcause := cause, lastidx := idx % 256, stamps := last.drop (last.length - 2),
    disabled := p.disabled || (3 ≤ last.length && now - last.headD 0 ≤ 1064000) }

def State.modPol (s : State) (part : Nat) (f : Policy → Policy) : State :=
  s.modPart part (fun p => { p with pol := f p.pol })

/-- The task that a valid choice takes up, and the cores on which a dispatch places it, as the snapshot has them. -/
def State.named (s : State) (d : Decision) (die : Nat) (c : Choice) : Option Task :=
  match d.kind with
  | .dispatch => if 16 ≤ c.dqueue then none else (s.headTasks d.part c.dqueue)[c.dpick]?
  | .preempt => if 16 ≤ c.pvictim then none else youngest (s.victims d.part c.pvictim die d.candq)
  | .fault => s.findTask d.task
def State.namedCores (s : State) (d : Decision) (die : Nat) (c : Choice) : List Nat :=
  if d.kind = .dispatch then ((s.named d die c).bind (fun t => s.placement t d.core)).getD [] else []

/-- A choice as it stands until it is applied, `cycles` scheduler cycles after the snapshot: at most 140 (R59). -/
def State.asRun (s : State) (d : Decision) (die cycles : Nat) (c : Choice) : DecRun :=
  { due := s.now + acNs (min (max cycles 1) 140), choice := c, task := (s.named d die c).map (·.id), cores := s.namedCores d die c }

/-- The fallback's choice (R60, R61). -/
def State.fallbackRun (s : State) (d : Decision) (die cycles : Nat) : DecRun :=
  { s.asRun d die cycles (s.fallback d die) with fallback := true }

/-- A decision runs on a snapshot of this state (R49, R57 to R60). -/
def State.snapshotRun (s : State) (d : Decision) (die : Nat) : DecRun :=
  let p := s.partAt d.part
  let pd := s.partDie d.part die
  if pd.version = 0 || p.pol.disabled then s.fallbackRun d die 0
  else
    match Accord.run pd.prog (s.queueField d die) (s.contextField d die) pd.held p.cfg.used.qcount pd.qptr d.kind.registers 65 {} with
    | .overrun cause idx n => { s.fallbackRun d die n with overrun := some (cause, idx) }
    | .fin x idx =>
      let n := x.cycles + bcCost 0x1E
      if !s.choiceValid d die x.choice then { s.fallbackRun d die n with overrun := some (4, idx) }
      else { s.asRun d die n x.choice with held := x.held, weights := x.weights }

/-- The events of a die's decisions. -/
def Decision.event (d : Decision) (die : Nat) : Event :=
  match d.kind with
  | .dispatch => .dispatchDecision d.part die
  | .preempt => .preemptionDecision d.part die
  | .fault => .faultDecision d.part die

/-- The sequencers of a die (R48). -/
def sequencers : Nat := 16

/-- Partitions of a die that wait for a sequencer, in the order in which their decisions were posed (R49). -/
def State.nextDecisions (s : State) (die : Nat) : State :=
  let ds := (s.dieAt die).decisions
  let waits := ds.filter (fun d => !(ds.any (fun e => e.part == d.part && e.run.isSome)))
  s.pushAll (waits.map (fun d => d.event die))

/-- A decision starts: it takes its snapshot, a dispatch with the deciding core of that moment, or, where no core can place
anything any more, with the one for which it was posed. A dispatch that comes to place nothing leaves its partition quiet
unless a task, a slot or an owner changes from the snapshot on (R50). -/
def State.startDecision (s : State) (d : Decision) (die : Nat) : State :=
  let x := { d with core := if d.kind = .dispatch then (s.decidingCore d.part die).getD d.core else d.core }
  let r := s.snapshotRun x die
  let s := s.modDie die (fun y => { y with decisions := y.decisions.map (fun e => if e = d then { x with run := some r } else e) })
  let s := if d.kind = .dispatch then s.modPartDie d.part die (fun p => { p with quiet := true }) else s
  s.after (r.due - s.now) (d.event die)

/-- The counters of a decision that is applied: an overrun of the version that is staged is counted, and a fallback decision
(R60, R62). -/
def State.countRun (s : State) (part die : Nat) (r : DecRun) : State :=
  let s := match r.overrun with
    | some o => if (s.partDie part die).version = (s.partAt part).pol.staged then s.modPol part (fun q => q.count o.1 o.2 s.now) else s
    | none => s
  if r.fallback then s.modPol part (fun p => { p with fallbacks := min (p.fallbacks + 1) (2 ^ 32 - 1) }) else s

/-- A decision ends: its choice and its staged writes are applied together. One that can no longer be carried out is void: only
the staged writes are applied, nothing is counted, and it is posed again (R57). -/
def State.endDecision (s : State) (d : Decision) (die : Nat) (r : DecRun) : State :=
  let s := s.modDie die (fun x => { x with decisions := x.decisions.erase d })
  let staged := fun (q : PartDie) =>
    { q with held := r.held.foldl (fun m e => FMap.set e.1 e.2 m) q.held,
             weights := r.weights.foldl (fun m e => FMap.set e.1 e.2 m) q.weights }
  let s := match s.carryOut d die r with
    | some y => (y.countRun d.part die r).modPartDie d.part die staged
    | none =>
      (s.modPartDie d.part die staged).modDie die (fun x => { x with decisions := x.decisions ++ [{ d with run := none }] })
  s.nextDecisions die

/-- The rank of a kind of decision in a partition's order (R49). -/
def DecKind.rank (k : DecKind) : Nat :=
  match k with
  | .fault => 0
  | .preempt => 1
  | .dispatch => 2

/-- The first decision of a partition on a die (R49). -/
def State.firstDecision (s : State) (part die : Nat) : Option Decision :=
  let mine := (s.dieAt die).decisions.filter (fun d => d.part == part)
  mine.find? (fun d => mine.all (fun e => d.kind.rank ≤ e.kind.rank))

/-- The decision of a partition that is in flight on a die ends when its time has come; else its first one starts, where a
sequencer is free. A fault decision whose task has been discarded is void (R58). -/
def State.runDecision (s : State) (part die : Nat) : State :=
  let ds := (s.dieAt die).decisions
  match ds.find? (fun d => d.part == part && d.run.isSome) with
  | some d =>
    match d.run with
    | some r => if r.due ≤ s.now then s.endDecision d die r else s
    | none => s
  | none =>
    match s.firstDecision part die with
    | none => s
    | some d =>
      let gone := d.kind == .fault && ((s.taskAt d.task).discarded || (s.findTask d.task).isNone)
      if gone then (s.modDie die (fun x => { x with decisions := x.decisions.erase d })).nextDecisions die
      else if sequencers ≤ ds.countP (fun e => e.run.isSome) then s
      else s.startDecision d die

/-- A fault decision that stands on a die which has been lost moves to the die that R48 then names. -/
def State.moveFaults (s : State) (part die : Nat) : State :=
  let mine := (s.dieAt die).decisions.filter (fun d => d.part == part && d.kind == .fault)
  mine.foldl (fun s d =>
    let n := s.faultDie (s.taskAt d.task) d.members die
    if n = die then s
    else
      let s := s.modDie die (fun x => { x with decisions := x.decisions.erase d })
      (s.modDie n (fun x => { x with decisions := x.decisions ++ [d] })).push (.faultDecision part n)) s

/-- A lost die runs nothing until the map switch: what was in flight is lost, and its fault decisions go elsewhere where a
die is live (R48). -/
def State.pollDecision (s : State) (part die : Nat) (e : Event) : State :=
  if (s.dieAt die).lost || s.dieCode die ≠ 0 then
    let s := (s.modDie die (fun x => { x with decisions := x.decisions.map (fun d => { d with run := none }) })).moveFaults part die
    if (s.dieAt die).decisions.any (fun d => d.part == part) then s.after (acNs 4096) e else s
  else s.runDecision part die

def execDispatchDecision (part die : Nat) (s : State) : Out := .next (s.pollDecision part die (.dispatchDecision part die))
def execPreemptionDecision (part die : Nat) (s : State) : Out := .next (s.pollDecision part die (.preemptionDecision part die))
def execFaultDecision (part die : Nat) (s : State) : Out := .next (s.pollDecision part die (.faultDecision part die))

/-! ## Staging and switching programs (R64 to R66) -/

/-- The bytecodes of an image. -/
def bytecodesOf (image n : Nat) : List Nat := (List.range n).map (fun i => fieldAt image (16 * i) 16)

/-- A refused staging: STAGECODE and STAGEIDX, in the block and in the status. -/
def State.stageRefused (s : State) (part code idx : Nat) : State × Word :=
  (s.modPol part (fun p => { p with stagecode := code, stageidx := idx }), BitVec.ofNat 64 (2 ^ 63 + idx * 2 ^ 16 + code))

/-- The last die of DIEMASK has switched (R66). A lost die is waited for, as its spare has to switch; an entry that is
FENCED has no scheduler and is not (log entry 71). -/
def State.finishSwap (s : State) (part : Nat) : State :=
  if !(s.partAt part).pol.pending ||
      s.dies.any (fun d => s.dieCode d.1 == 0 && (FMap.get {} d.2.parts part).shadow.isSome) then s
  else s.modPol part (fun p => { p with
    version := p.staged, pending := false, disabled := false, overruns := 0, lastcause := 0, lastidx := 0, fallbacks := 0,
    stamps := [] })

/-- `stagePolicy`: the checks of Table 3-8, then the program goes to every die of DIEMASK. -/
def State.stagePolicy (s : State) (part : Nat) (prog : Option (List Nat)) (keep byTask : Bool) : State × Word :=
  let p := s.partAt part
  if p.pol.pending then s.stageRefused part 1 0
  else if byTask && !p.pol.taskswap then s.stageRefused part 2 0
  else match prog with
    | none => s.stageRefused part 5 0
    | some bs =>
      match firstBad bs with
      | some i => s.stageRefused part 3 i
      | none =>
        let v := if p.pol.version = 65535 then 1 else p.pol.version + 1
        let s := s.modPol part (fun q => { q with staged := v, pending := true, stagecode := 0, stageidx := 0 })
        let dies := (List.range 12).filter (bitAt p.cfg.diemask)
        let s := dies.foldl (fun s d => s.modPartDie part d (fun q => { q with shadow := some (v, bs, keep) })) s
        (s.finishSwap part, BitVec.ofNat 64 v)

/-- Writing 1 to STAGE (R65); the read of an image in a chunk that awaits its rebuild waits (16_recovery R399). -/
def execStage (part : Nat) (s : State) : Out :=
  let p := (s.partAt part).pol
  if p.image % 8 = 0 ∧ s.imageWaits p.image (2 * (p.imglen + 1)) then .next (s.after (acNs 4096) (.stage part)) else
  let image := if p.image % 8 = 0 then (s.imageAt p.image (2 * (p.imglen + 1))).map leNat else none
  .next (s.stagePolicy part (image.map (fun n => bytecodesOf n (p.imglen + 1))) p.keep false).1

/-- `ASWAP` (R64): the image is read as by `LD`, in whole words. -/
def execAswap (d a : Fin 32) (k : Bool) (n : Fin 256) (s : State) : Out :=
  s.gated [(a, false)] d true (fun s =>
    let part := (s.slotTask s.cur).part
    s.withGot (s.readBlock s.cur (s.reg a) ((n.val + 4) / 4)) (fun s image =>
      let r := s.stagePolicy part (some (bytecodesOf image (n.val + 1))) k true
      (r.1.setReg d r.2).retire))

/-- A die puts its shadow program in force, when no decision of the partition is in flight there (R66). -/
def execPolicySwitch (part die : Nat) (s : State) : Out :=
  match (s.partDie part die).shadow with
  | none => .next s
  | some x =>
    if s.inFlight part die then .next s else
    .next ((s.modPartDie part die (fun p => { p with
      version := x.1, prog := x.2.1, shadow := none, held := if x.2.2 then p.held else [] })).finishSwap part)

end Machine
end Sys2Proof
end

