-- ==== Sys2Proof/Machine/Launch.lean ====
section
/-!
DEFINITION. Launch (02_launch R34 to R45, R440): partition configuration, doorbells, the admission of launch records, held
records, and the copy of declared inputs into staging.
-/
namespace Sys2Proof
namespace Machine

/-! ## Reads of the scheduler -/

/-- Bytes at an SPA, or the code of the negative reply; 64 stands for a die whose loss is not yet decided (16_recovery
R404), 65 for a chunk that awaits rebuild (R399). -/
def State.askSpa (s : State) (spa n : Nat) : Except Nat (List Byte) :=
  let h := s.home spa
  if h.win = .bad then .error 1
  else if h.outside then
    let code := s.outsideCode spa spa
    if code = 0 then .ok ((List.range n).map (fun i => BitVec.ofNat 8 (Config.freeWord s.freeCtr (spa + i)).toNat))
    else .error code
  else if s.dieCode h.die ≠ 0 then .error (s.dieCode h.die)
  else if (s.dieAt h.die).lost then .error 64
  else if (cutAt 256 spa n).any (fun c => (s.lostChunk c.1).isSome) then .error 65
  else if (cutAt 256 spa n).any (fun c => s.unrecoverable c.1) || s.isBad h.key n then .error 5
  else .ok (s.readBytes h n)

/-- The same for a stretch of virtual memory, piece by piece; 1 where it does not translate or may not be read. -/
def State.askVa (s : State) (die asid v n : Nat) : Except Nat (List Byte) :=
  (cutAt 65536 v n).foldl (fun r p =>
    match r with
    | .error c => .error c
    | .ok bs =>
      match s.translate die asid p.1 p.2 with
      | none => .error 1
      | some (e, a) =>
        if !e.r then .error 1
        else match s.askSpa a p.2 with
          | .error c => .error c
          | .ok more => .ok (bs ++ more)) (.ok [])

/-! ## Admission (R37 to R40, Table 2-3) -/

/-- Reserved fields of a header, and the fields that the host writes as zero. -/
def recReserved (h : Nat) : Bool :=
  fieldAt h 304 720 != 0 || fieldAt h 219 37 != 0 || fieldAt h 152 40 != 0 || fieldAt h 64 15 != 0 || fieldAt h 0 32 != 0

/-- The codes of the declared levels. -/
def recLevels (h : Nat) : List Nat := (List.range (fieldAt h 82 4)).map (fun i => fieldAt h (128 + 3 * i) 3)

/-- Level tables break R16: codes that do not decrease, or codes past the last level. -/
def levelsBad (h : Nat) : Bool :=
  let n := fieldAt h 82 4
  n == 0 || 8 < n || fieldAt h 128 24 / 2 ^ (3 * n) != 0 ||
    (List.range (n - 1)).any (fun i => fieldAt h (128 + 3 * i) 3 ≤ fieldAt h (131 + 3 * i) 3)

/-- The core that a record's point names. -/
def recPoint (h : Nat) : Nat := fieldAt h 205 4 * 512 + fieldAt h 209 7 * 8 + fieldAt h 216 3

/-- The creator that a record stands for: every declared level lies within its level, its chain is the job's open
domains (R38). -/
def State.recCreator (s : State) (part h : Nat) : Creator :=
  let job := fieldAt h 86 16
  { part := part, asid := fieldAt h 102 10, job := job, point := recPoint h, levels := recLevels h,
    diemask := (s.partAt part).cfg.used.diemask, level := 0,
    chain := (s.domains.filter (fun d => d.job == job)).map (·.id), inner := 0 }

/-- A block's check, with its tile entries: a tile list that does not lie in ranges that grant R fails check 11, and no
other check is made (01_work R14). A read of the list that is refused gives its code. -/
def State.blockCheck (s : State) (c : Creator) (d : Nat) : Except Nat (Nat × List Nat) :=
  let b := declOf d
  let n := 16 * (b.nin + b.nout)
  let die := dieOfCore c.point
  if s.translationHeld c.asid then .error 65
  else if n ≠ 0 ∧ !s.covered die c.asid b.tiles n (fun e => e.r) then .ok (11, [])
  else match s.askVa die c.asid b.tiles n with
    | .ok bs =>
      let raw := tilesOf (leNat bs) (b.nin + b.nout)
      .ok (s.declCheck c d raw, raw)
    | .error code => .error code

/-- What the parsing of a record comes to; `unread` is a tile list whose read has been refused with a code, or waits. -/
inductive Parse where
  | refuse (code : Nat)
  | hold
  | unread (code : Nat)
  | accept (blocks : List (Nat × List Nat))
deriving DecidableEq, Repr

/-- The first block, from number `i` on, whose tile list is not read or whose declaration fails. -/
def declFail : Nat → List (Except Nat (Nat × List Nat)) → Option Parse
  | _, [] => none
  | _, .error code :: _ => some (.unread code)
  | i, .ok r :: rs => if r.1 ≠ 0 then some (.refuse (16 + 16 * i + r.1)) else declFail (i + 1) rs

/-- A block of a held record whose tile list can no longer be read (log entry 103). -/
def tilesLost (rs : List (Except Nat (Nat × List Nat))) : Option Parse :=
  declFail 0 (rs.map (fun r =>
    match r with
    | .ok (c, raw) => if c = 11 ∧ raw.isEmpty then .ok (11, []) else .ok (0, raw)
    | .error code => .error code))

/-- The tile entries of the blocks. -/
def tileLists (rs : List (Except Nat (Nat × List Nat))) : List (List Nat) :=
  rs.map (fun r =>
    match r with
    | .ok r => r.2
    | .error _ => [])

/-- Checks 0x07 and 0x08; an account at 0 refuses every launch (17_retire R409). -/
def State.roomCheck (s : State) (part : Nat) (ds : List Nat) : Nat :=
  let p := (s.partAt part).cfg
  if p.energy = 0 || p.energy < ((ds.map (fun d => (declOf d).energy)).foldl (· + ·) 0) then 7
  else if 4096 < s.liveTasks part + ds.length ||
      1024 < s.pkg.triggers.length + ds.countP (fun d => (declOf d).kind == 2) then 8
  else 0

/-- The checks of Table 2-3 in their order, then the wait for a parked job (16_recovery R402); of a held record only those that are repeated (R40). `h` is the header, `bs`
the two blocks. The ASID control word is that of the record's DIE, or of die 0 where DIE names no compute die; Table 4-9 puts
one on every die, and the rule does not say which decides BADASID (log entry 106). -/
def State.parseRecord (s : State) (part h : Nat) (bs : List Nat) : Parse :=
  let p := (s.partAt part).cfg
  let c := s.recCreator part h
  let die := fieldAt h 205 4
  let ctl := s.asidCtl (if die < 12 then die else 0) c.asid
  let n := fieldAt h 118 2
  let ds := bs.take n
  let rs := ds.map (s.blockCheck c)
  let front :=
    if p.held then 0
    else if fieldAt h 120 8 != 1 || n == 0 || n == 3 || recReserved h || fieldAt h 112 6 != part then 1
    else 0
  let middle :=
    if p.held then 0
    else if !(ctl.owned && ctl.part == part) then 3
    else if levelsBad h then 4
    else if fieldAt h 192 13 != s.fabric.coord || 12 ≤ die || !bitAt p.diemask die ||
        Config.clusters die ≤ fieldAt h 209 7 then 5
    else if (s.findJob c.job).any (fun j => j.asid != c.asid || j.part != part || j.last) then 6
    else 0
  if front ≠ 0 then .refuse front
  else if !p.enable || p.qcount = 0 then .refuse 2
  else if middle ≠ 0 then .refuse middle
  else match if p.held then tilesLost rs else declFail 0 rs with
  | some fail => fail
  | none =>
    let room := s.roomCheck part ds
    if (s.findJob c.job).any (fun j => j.parkedFor.isSome) then .hold
    else if room = 0 then .accept (ds.zip (tileLists rs))
    else if bitAt h 81 then .hold
    else .refuse room

/-- The job's rind is opened when its first record is admitted (01_work R18). -/
def State.openJob (s : State) (c : Creator) (last : Bool) : State :=
  match s.findJob c.job with
  | some _ => s.modJob c.job (fun j => { j with last := j.last || last })
  | none =>
    let d : Domain := { id := 0, job := c.job, code := c.levels.headD 7, point := c.point }
    let j : Job := { num := c.job, asid := c.asid, part := c.part, last := last }
    { s with jobs := s.jobs ++ [j], domains := s.domains ++ [d] }

def State.modCfg (s : State) (part : Nat) (f : PartCfg → PartCfg) : State :=
  s.modPart part (fun p => { p with cfg := f p.cfg })

/-- An admitted record: debit, rind, tasks, and the completion that is due (R39, R42, R43). -/
def State.accept (s : State) (part h : Nat) (blocks : List (Nat × List Nat)) : State :=
  let c := s.recCreator part h
  let index := (s.partAt part).cfg.lqhead
  let sum := (blocks.map (fun b => (declOf b.1).energy)).foldl (· + ·) 0
  let s := s.modCfg part (fun p => { p with energy := p.energy - sum })
  let s := s.openJob c (bitAt h 79)
  let l : Launch :=
    { part := part, index := index, asid := c.asid, left := blocks.length, cpladdr := fieldAt h 256 48, notify := bitAt h 80,
      die := dieOfCore c.point }
  let s := s.modPkg (fun p => { p with launches := p.launches ++ [l] })
  blocks.foldl (fun s b => (s.createTask c (declOf b.1) b.2 (some (part, index)) none false).1) s

/-! ## The ring (R35, R36) -/

def PartCfg.ringOk (p : PartCfg) : Bool := 4 ≤ p.lqsize && p.lqsize ≤ 12

/-- The SPA of the record at LQHEAD. -/
def PartCfg.recordAt (p : PartCfg) : Nat := p.lqbase + 256 * (p.lqhead % 2 ^ p.lqsize)

/-- CODE and STATE written into the record; none where the write meets a negative reply. -/
def State.writeState (s : State) (spa code st : Nat) : Option State :=
  let h := s.home spa
  if h.outside then if s.outsideCode spa (spa + 2) = 0 then some s else none
  else if s.dieCode h.die ≠ 0 || h.win != .dram || s.unrecoverable spa then none
  else some ((s.underKey 0 (h.key + 2) 2).store (h.key + 2) [BitVec.ofNat 8 st, BitVec.ofNat 8 code])

/-- Parsing stops at the record until the ring can be reached. -/
def State.stallRing (s : State) (part : Nat) : State := s.modCfg part (fun p => { p with lqerr := true, stalled := true })

/-- The next record. -/
def State.nextRecord (s : State) (part : Nat) : State :=
  (s.modCfg part (fun p => { p with lqhead := (p.lqhead + 1) % 65536, held := false, stalled := false, recAt := none })).push
    (.launchAdmission part)

/-- The configuration is read for a record that is parsed anew (R34); a change of it lets waiting tasks look again. -/
def State.readCfg (s : State) (part : Nat) : State :=
  let p := (s.partAt part).cfg
  let now : PartUse := { stagebase := p.stagebase, stagesize := p.stagesize, share := p.share, qcount := p.qcount, diemask := p.diemask }
  if p.held ∨ p.used = now then s else ((s.modCfg part (fun p => { p with used := now })).unquietPart part).fetchAgain part

/-- A record whose read waits for a chunk or for the decision on a die's loss is looked at again (16_recovery R399, R404). -/
def State.waitRing (s : State) (part spa : Nat) : State :=
  let s := match s.lostChunk spa with
    | some d => s.awaitChunk d
    | none => s
  s.after (acNs 4096) (if (s.partAt part).cfg.held then .heldRecordRecheck part else .launchAdmission part)

/-- A read for a record that is refused stops its ring (R36, log entry 103); one that waits goes on later. -/
def State.unreadRing (s : State) (part spa code : Nat) : State :=
  if code = 64 ∨ code = 65 then s.waitRing part spa else s.stallRing part

/-- The record that is parsed: a held one stays where it was read, whatever LQBASE and LQSIZE say since (R34). -/
def PartCfg.recordNow (p : PartCfg) : Nat := if p.held then p.recAt.getD p.recordAt else p.recordAt

/-- Parses a record, from its read to its new STATE: 1 before the checks, then 2, 3 or 4 (R39, R40). Of a record that is
looked at again the fields CODE and STATE are the scheduler's own. -/
def State.parseHead (s : State) (part : Nat) : State :=
  let s := s.readCfg part
  let p := (s.partAt part).cfg
  let a := p.recordNow
  match if (s.home a).win = .dram then s.askSpa a 256 else .error 1 with
  | .error code => s.unreadRing part a code
  | .ok bs =>
    let n := if p.recAt = some a then leNat bs / 2 ^ 32 * 2 ^ 32 else leNat bs
    match if p.held then some s else s.writeState a 0 1 with
    | none => s.stallRing part
    | some s =>
    let s := s.modCfg part (fun p => { p with recAt := some a })
    let done := fun (s : State) (code st : Nat) (go : State → State) =>
      match s.writeState a code st with
      | some t => go t
      | none => s.stallRing part
    match s.parseRecord part (n % 2 ^ 1024) [fieldAt n 1024 512, fieldAt n 1536 512] with
    | .refuse code => done s code 4 (fun s => s.nextRecord part)
    | .hold => done s 0 2 (fun s => s.modCfg part (fun p => { p with held := true, stalled := false }))
    | .unread code => s.unreadRing part a code
    | .accept blocks => done s 0 3 (fun s => (s.accept part (n % 2 ^ 1024) blocks).nextRecord part)

/-- Writes and settlements of the same moment go before an admission (R41, 17_retire R410). -/
def State.energyDue (s : State) (part : Nat) : Bool :=
  s.agenda.any (fun e => writesEnergy part e ||
    match e with
    | .taskRetirement id => (s.findTask id).any (fun t => t.part == part)
    | _ => false)

/-- The record at LQHEAD of a ring that has one is admitted, held or refused (R36, R39). -/
def execLaunchAdmission (part : Nat) (s : State) : Out :=
  let p := (s.partAt part).cfg
  .next (if p.lqhead = p.lqtail || !p.ringOk || p.held then s
    else if s.energyDue part then s.push (.launchAdmission part) else s.parseHead part)

/-- Checks 0x07 and 0x08 of a held record again (R40). -/
def execHeldRecordRecheck (part : Nat) (s : State) : Out :=
  .next (if !(s.partAt part).cfg.held then s
    else if s.energyDue part then s.push (.heldRecordRecheck part) else s.parseHead part)

/-- A stalled ring tries its record again (R36). -/
def State.retryRing (s : State) (part : Nat) : State :=
  let p := (s.partAt part).cfg
  if p.stalled then s.push (if p.held then .heldRecordRecheck part else .launchAdmission part) else s

/-- An X-die that answers; before READY it ignores doorbells and refuses writes (17_retire R412). -/
def State.xdieUp (s : State) (x : Nat) : Bool := s.pkg.status.ready && (x == 12 || x == 13) && !FMap.get false s.fabric.xdieLost x

/-- A doorbell write (R35), forwarded to the X-die that serves the ring (R36). There are 64 partitions (00_scope R4). A TAIL equal
to LQTAIL has no effect by one sentence of R35, and one that is ignored for ENABLE or LQSIZE sets DBERR by another: where both
hold the model sets DBERR (log entry 87). -/
def execDoorbell (xdie part : Nat) (value : BitVec 64) (s : State) : Out :=
  let p := (s.partAt part).cfg
  let tail := value.toNat % 65536
  if 64 ≤ part || !s.xdieUp xdie then .next s
  else
    let s := s.retryRing part
    if !p.enable || !p.ringOk || 2 ^ p.lqsize < (tail + 65536 - p.lqhead) % 65536 then
      .next (s.modCfg part (fun p => { p with dberr := true }))
    else if tail = p.lqtail then .next s
    else .next ((s.modCfg part (fun p => { p with lqtail := tail })).push (.launchAdmission part))

/-! ## The configuration block (R34, R41) -/

/-- Queues of the enabled partitions. -/
def State.queueSum (s : State) : Nat :=
  ((s.parts.filter (fun p => p.2.cfg.enable)).map (fun p => p.2.cfg.qcount)).foldl (· + ·) 0

/-- A write of QCOUNT or ENABLE takes effect unless the package would have more than 256 queues. -/
def State.withQueues (s : State) (part : Nat) (f : PartCfg → PartCfg) : Option State :=
  let t := s.modCfg part f
  if 256 < t.queueSum then none else some t

def insertId (n : Nat) : List Nat → List Nat
  | [] => [n]
  | m :: l => if n ≤ m then n :: m :: l else m :: insertId n l

/-- A partition that is disabled while a swap is pending returns to version 0 (03_accord R66). -/
def State.abandonSwap (s : State) (part : Nat) : State :=
  let s := s.modPart part (fun p => { p with pol := { p.pol with version := 0, staged := 0, pending := false } })
  { s with dies := s.dies.map (fun (d : Nat × Die) => (d.1, { d.2 with parts := d.2.parts.map (fun (p : Nat × PartDie) => (p.1,
    if p.1 = part then { p.2 with version := 0, prog := [], shadow := none } else p.2)) })) }

/-- A partition is destroyed: its tasks retire with END 3 in task-id order, a COMMITTED one with END 0 once its release has been
performed (02_launch R33), its log descriptor and its queues are
released, a pending swap is abandoned (17_retire R406, 03_accord R66). -/
def State.destroyPart (s : State) (part : Nat) : State :=
  let ids := (s.tasks.filter (fun t => t.part == part)).foldl (fun l t => insertId t.id l) []
  let s := ids.foldl (fun (s : State) id =>
    match s.findTask id with
    | none => s
    | some t =>
      if t.st = .committed then
        let r := s.releaseTask t
        if r.releaseLeft t then r.push (.taskRetirement id) else s.retireTask t
      else
        let s := if t.discarded || t.endCode ≠ 0 then s else s.killOne id 3
        s.retireTask (s.taskAt id)) s
  let s := (s.modPart part (fun p => { p with rlhead := 0, rlsize := 0, rlbase := 0 })).abandonSwap part
  let s := { s with dies := s.dies.map (fun (d : Nat × Die) => (d.1, { d.2 with
    parts := FMap.drop part d.2.parts, decisions := d.2.decisions.filter (fun e => e.part != part) })) }
  s.push (.heldRecordRecheck part)

/-- ENADD: the sum saturates; a held record is then checked against it (R40, R41). -/
def State.addEnergy (s : State) (part v : Nat) : State :=
  (s.modCfg part (fun p => { p with energy := min (p.energy + v) (2 ^ 64 - 1) })).push (.heldRecordRecheck part)

/-- A ring whose LQBASE or LQSIZE has been written tries its record again (R36). -/
def State.retryMoved (s : State) (part : Nat) : State := (s.retryRing part).push (.launchAdmission part)

/-- A write of one rw field of the block, truncated to the field. Table 2-1 gives QCOUNT the values 1 to 16 and SHARE 0 to
16, and says nothing of 17 to 31: the model stores and uses them as written (log entry 107). -/
def State.writeCfg (s : State) (part : Nat) (field : PartField) (v : Nat) : State :=
  let refused := s.modCfg part (fun p => { p with qerr := true })
  let was := (s.partAt part).cfg.enable
  match field with
  | .energy => (s.modCfg part (fun p => { p with energy := v })).push (.heldRecordRecheck part)
  | .stagebase => s.modCfg part (fun p => { p with stagebase := v % 2 ^ 60 })
  | .stagesize => s.modCfg part (fun p => { p with stagesize := v % 2 ^ 32 })
  | .lqbase => (s.modCfg part (fun p => { p with lqbase := v % 2 ^ 60 })).retryMoved part
  | .lqsize => (s.modCfg part (fun p => { p with lqsize := v % 16 })).retryMoved part
  | .share => s.modCfg part (fun p => { p with share := v % 32 })
  | .qcount =>
    match s.withQueues part (fun p => { p with qcount := v % 32 }) with
    | none => refused
    | some t =>
      let t := t.push (.heldRecordRecheck part)
      if v % 32 = 0 && (t.partAt part).pol.pending then t.abandonSwap part else t
  | .diemask => s.modCfg part (fun p => { p with diemask := v % 4096 })
  | .enable =>
    match s.withQueues part (fun p => { p with enable := bitAt v 0 }) with
    | none => refused
    | some t => if was && !bitAt v 0 then t.destroyPart part else t
  | .flags => s.modCfg part (fun p => { p with
      lqerr := p.lqerr && !bitAt v 2, qerr := p.qerr && !bitAt v 1, dberr := p.dberr && !bitAt v 0 })

def execPartitionConfigWrite (part : Nat) (field : PartField) (value : BitVec 64) (s : State) : Out :=
  .next (if s.pkg.status.ready && part < 64 then s.writeCfg part field value.toNat else s)

/-- ENADD adds and saturates; a held record is then checked against the sum (R40, R41). -/
def execEnadd (part : Nat) (value : BitVec 64) (s : State) : Out :=
  .next (if s.pkg.status.ready && part < 64 then s.addEnergy part value.toNat else s)

/-! ## Staging (R42, R440) -/

/-- The inputs of a QUEUED task take their place in the staging region, all together, and the copies begin; a copy that is to be
made again later is left to its time (R440). -/
def State.beginStaging (s : State) (id : Nat) : State :=
  let t := s.taskAt id
  let idx := List.range t.decl.nin
  match idx.foldl (fun (o : Option State) i => o.bind (fun s => s.placeInput id i)) (some s) with
  | none => s
  | some s =>
    let under := fun (i : Nat) => [Event.stagingFetchComplete id i, Event.stagingFetchRetry id i].any (fun e =>
      s.agenda.contains e || s.timers.any (fun x => x.ev == e))
    let due := idx.filter (fun i => (t.tilesIn[i]?).any (·.fetch) && !(t.staged i).resident && !under i)
    (s.pushAll (due.map (fun i => .stagingFetchComplete id i))).tryReady id

/-- The copy cannot be made: ROLLED-BACK with the parked flag; the host is told (R440). -/
def State.parkFetch (s : State) (id : Nat) : State :=
  let t := s.taskAt id
  (s.modTask id (fun t => { t with st := .rolledBack, parked := true })).note (.parkedTask t.part id)

/-- The copy of one input (R42), made again after 1,000 ns on the codes that R440 names; a range commit of the address space
holds it (04_placement R93). -/
def State.fetchInput (s : State) (id i : Nat) : State :=
  let t := s.taskAt id
  match t.tilesIn[i]? with
  | none => s
  | some tile =>
    if !tile.fetch || (t.staged i).resident || (t.staged i).spa.isNone then s
    else if s.translationHeld t.asid then s.after (acNs 16) (.stagingFetchComplete id i)
    else match s.askVa (dieOfCore t.point) t.asid tile.addr tile.length with
      | .ok bs =>
        let s := (cutAt 65536 tile.addr tile.length).foldl (fun (s : State) p =>
          match s.translate (dieOfCore t.point) t.asid p.1 p.2 with
          | some (_, a) => s.chargeBytes id (s.home a) p.2
          | none => s) s
        ((s.stageBytes id i 0 bs).modStaged id i (fun g => { g with bytes := bs, resident := true, item := none })).tryReady id
      | .error c =>
        let pieces : List Piece := (cutAt 65536 tile.addr tile.length).filterMap (fun p =>
          (s.translate (dieOfCore t.point) t.asid p.1 p.2).map (fun e =>
            { va := p.1, spa := e.2, off := 0, len := p.2, ecg := e.1.ecg }))
        if c = 64 || c = 65 then (s.askChunks pieces).after (acNs 4096) (.stagingFetchComplete id i)
        else if c = 2 || c = 3 || c = 6 || c = 7 then s.after 1000 (.stagingFetchRetry id i)
        else (pieces.foldl State.pieceReport s).parkFetch id

/-- The word of an arrival trigger lies in another package: whether it has reached TCOUNT is free (R45, log entry 104). -/
def State.askTrigger (s : State) (t : Task) : State :=
  match s.translate (dieOfCore t.point) t.asid t.decl.trigger 8 with
  | none => s
  | some (_, a) =>
    if !(s.home a).outside then s
    else if Config.freeCode s.freeCtr t.id % 2 = 0 then s.enqueue t.id
    else s.after (acNs 4096) (.stagingFetchComplete t.id t.decl.nin)

/-- The staging of a QUEUED task: with input NIN its beginning, else the copy of one input. A DECLARED task whose trigger
lies in another package looks at it. -/
def State.stageStep (s : State) (id input : Nat) : State :=
  match s.findTask id with
  | none => s
  | some t =>
    if t.st = .declared ∧ t.decl.kind = 2 then s.askTrigger t
    else if t.st ≠ .queued then s else if t.decl.nin ≤ input then s.beginStaging id else s.fetchInput id input

def execStagingFetchComplete (task input : Nat) (s : State) : Out := .next (s.stageStep task input)

/-- The copy is made again (R440). -/
def execStagingFetchRetry (task input : Nat) (s : State) : Out :=
  .next (match s.findTask task with
    | some t => if t.st = .queued then s.fetchInput task input else s
    | none => s)

end Machine
end Sys2Proof
end

