-- ==== Sys2Proof/Machine/Fabric.lean ====
section
/-!
DEFINITION. The fabric (14_fabric R348, R350 to R361): the choice of a link, timers, lane and link events, the router
clock, the fence list, and the loss of an X-die. Shape, links and routes are in Route.
-/
namespace Sys2Proof
namespace Machine

/-! ## The link of a packet (R353, R354) -/

/-- The link of a memory-semantic flow. -/
def State.flowLink (s : State) (p : Packet) (dst port : Nat) : Option Nat :=
  let ls := (portLinks port).filter (fun n => (s.link n).carries)
  ls[(p.flow + 4608 * p.die + 65536 * dst) % max ls.length 1]?

/-- The link of a bulk box by smooth weighted round robin, with the credits after it. -/
def State.bulkLink (s : State) (port : Nat) : Option (Nat × State) :=
  let ls := (portLinks port).filter (fun n => (s.link n).bulk != 0)
  let total := (ls.map (fun n => (s.link n).bulk)).foldl (· + ·) 0
  let credit := fun n => (s.link n).credit + Int.ofNat (s.link n).bulk
  match ls with
  | [] => none
  | first :: rest =>
    let best := rest.foldl (fun b n => if credit b < credit n then n else b) first
    let t := ls.foldl (fun (t : State) n => t.modLink n (fun l => { l with credit := l.credit + Int.ofNat l.bulk })) s
    some (best, t.modLink best (fun l => { l with credit := l.credit - Int.ofNat total }))

/-- The rotation of a port restarts from link 0. -/
def State.restartPort (s : State) (port : Nat) : State :=
  (portLinks port).foldl (fun (s : State) n => s.modLink n (fun l => { l with credit := 0 })) s

/-! ## Packets -/

def State.findPacket (s : State) (id : Nat) : Option Packet := s.fabric.packets.find? (fun p => p.id == id)
def State.modPacket (s : State) (id : Nat) (f : Packet → Packet) : State :=
  s.modFabric (fun b => { b with packets := b.packets.map (fun p => if p.id = id then f p else p) })

/-- Two memory-semantic packets of one flow (R350). -/
def Packet.sameFlow (p q : Packet) : Bool := !p.bulk && !q.bulk && q.flow == p.flow && q.dst == p.dst && q.die == p.die

/-- Packets of a flow that wait for an earlier one of it look again. -/
def State.wakeFlow (s : State) (p : Packet) : State :=
  s.pushAll ((s.fabric.packets.filter (fun q => q.id != p.id && p.sameFlow q && !q.sent && q.link.isNone)).map
    (fun q => .routerHop q.id))

/-- A packet is answered or has no one to answer: what waited behind it goes on. -/
def State.forgetPacket (s : State) (id : Nat) : State :=
  let gone := s.fabric.packets.filter (fun p => p.id == id && !p.sent)
  let s := s.modFabric (fun b => { b with packets := b.packets.filter (fun p => p.id != id) })
  gone.foldl State.wakeFlow s

/-- A box that waits in a bank has been answered by its held acknowledgement (12_copy R320). -/
def State.boxLive (s : State) (id : Nat) : Bool := (s.findBox id).any (fun b => !b.held)

/-- What a packet carries still waits for its answer. -/
def State.packetLive (s : State) (p : Packet) : Bool :=
  match p.load with
  | .msg m => (s.findMsg m).any (fun m => m.st == .sent)
  | .box b => s.boxLive b
  | .request b => (s.findBox b).isSome
  | .fill _ _ => p.answer.isNone
  | .wb w => s.wbs.any (fun x => x.id == w)
  | .parity u => s.parity.any (fun x => x.id == u)

/-- A request for a line is answered with a code: the fill is looked at. -/
def State.answerFill (s : State) (p : Packet) (core line code : Nat) : State :=
  (s.modPacket p.id (fun q => { q with answer := some code })).push (.l1Fill core line)

/-- A parity update that its holder does not take is dropped, and the group reported (12_copy R323). -/
def State.dropParity (s : State) (id : Nat) : State :=
  match s.parity.find? (fun u => u.id == id) with
  | some u => ({ s with parity := s.parity.filter (fun v => v.id != id) }.note (.degraded u.group)).boxDone u.box
  | none => s

/-- The negative reply of a packet reaches its issuer (R355). -/
def State.refusePacket (s : State) (p : Packet) (code : Nat) : State :=
  match p.load with
  | .fill core line => s.answerFill p core line code
  | .msg m =>
    let s := s.forgetPacket p.id
    match s.findMsg m with
    | some m => if m.st = .sent then s.refuse m code else s
    | none => s
  | .box b =>
    let s := s.forgetPacket p.id
    match s.findBox b with
    | some b => s.boxOut b.id code (s.boxVa b) false
    | none => s
  | .request b =>
    let s := s.forgetPacket p.id
    match s.findBox b with
    | some b => s.ownerOut b code ((b.src.head?.map (·.va)).getD 0)
    | none => s
  | .wb w => (s.forgetPacket p.id).push (.writebackReply w (BitVec.ofNat 7 code))
  | .parity u => (s.forgetPacket p.id).dropParity u

/-- The access that a packet carries is performed at its destination, or answered from there. -/
def State.performPacket (s : State) (p : Packet) : State :=
  match p.load with
  | .msg m =>
    match s.findMsg m with
    | some m =>
      let w := (s.home m.spa).win
      s.push (if m.kind = .write ∧ w = .reg then .regWindowWrite m.id
        else if m.kind = .write ∧ w = .tbl then .tblWindowWrite m.id else .homeAccess m.id)
    | none => s
  | .box b =>
    match s.findBox b with
    | some b => s.push (s.boxEvent b)
    | none => s
  | .request b => s.push (.directedReadOwner b)
  | .fill core line => s.answerFill p core line (s.packetCode (line * 32) p.id)
  | .wb w => s.push (.writebackReply w (BitVec.ofNat 7 (Config.freeCode s.freeCtr w % 7)))
  | .parity u => s.push (.parityUpdate u)

/-- The limit of a request's timer on a link (R356). -/
def State.timeout (s : State) (l : Link) : Nat := max s.fabric.tobase 1 * 1000 * l.scale

def State.startTimer (s : State) (id n : Nat) : State :=
  let limit := s.timeout (s.link n)
  (s.modPacket id (fun p => { p with sent := true, start := s.now, limit := limit })).after limit (.fabricTimeout id)

/-- The task and the bytes of a packet. -/
def State.packetLoad (s : State) (p : Packet) : Nat × Nat :=
  match p.load with
  | .msg m => ((s.findMsg m).map (fun m => (m.who.task, m.width))).getD (noTaskId, 0)
  | .box b => ((s.findBox b).map (fun b => (b.who.task, b.data.length))).getD (noTaskId, 0)
  | .request b => ((s.findBox b).map (fun b => (b.who.task, 0))).getD (noTaskId, 0)
  | .fill core line => (((s.lineWaiters core line).head?.map (fun w => (s.slotTask w.1).id)).getD noTaskId, 32)
  | .wb w =>
    ((s.wbs.find? (fun x => x.id == w)).map (fun w =>
      ((w.slot.map (fun k => (s.slotTask k).id)).getD noTaskId, w.mask.countP (fun b => b)))).getD (noTaskId, 0)
  | .parity u => (noTaskId, ((s.parity.find? (fun x => x.id == u)).map (fun u => u.deltas.length)).getD 0)

/-- A packet leaves on a link that is UP, and its timer starts. How many hops follow, when its flits are acknowledged, and
whether a reply comes, is open; one that a next router has had before is dropped there (R350). -/
def State.leave (s : State) (p : Packet) (n : Nat) : State :=
  let load := s.packetLoad p
  let s := s.charge load.1 (load.2 * 5500 * (1 + Config.freeCode s.freeCtr (3 * p.id)))
  let reaches := !p.done && Config.freeCode s.freeCtr (3 * p.id + 1) % 2 == 0
  let s := s.modPacket p.id (fun p => { p with
    link := some n, acked := s.now + Config.freeCode s.freeCtr (3 * p.id + 2), resends := 0, done := p.done || reaches })
  let s := (s.startTimer p.id n).wakeFlow p
  if reaches then s.performPacket p else s

/-- An earlier packet of the same flow has not left, wherever it waits: this one stays behind it (R350). -/
def State.behind (s : State) (p : Packet) : Bool :=
  (s.fabric.packets.takeWhile (fun q => q.id != p.id)).any (fun q => p.sameFlow q && !q.sent)

/-- Packets whose flits stand in the retry buffer of a link. -/
def State.retryBuffer (s : State) (n : Nat) : List Packet :=
  s.fabric.packets.filter (fun q => q.sent && q.link == some n && decide (s.now < q.acked))

def State.packetFlits (s : State) (p : Packet) : Nat := Config.flits (s.packetLoad p).2

/-- Packets for which `p` waits at a link: flits of its flow in the retry buffer of another one (R350), and those that fill
the window of its class (R351, Table 14-3). -/
def State.inTheWay (s : State) (p : Packet) (n : Nat) : List Packet :=
  let old := s.fabric.packets.filter (fun q =>
    q.id != p.id && p.sameFlow q && q.sent && q.link != some n && decide (s.now < q.acked))
  let mine := (s.retryBuffer n).filter (fun q => q.bulk == p.bulk && q.id != p.id)
  let used := (mine.map s.packetFlits).foldl (· + ·) 0
  old ++ if used ≠ 0 ∧ (s.link n).window p.bulk < used + s.packetFlits p then mine else []

/-- The packet leaves on a link, once nothing is in the way. -/
def State.tryLeave (s : State) (p : Packet) (n : Nat) : State :=
  match smallest ((s.inTheWay p n).map (·.acked)) with
  | none => s.leave p n
  | some t => (s.modPacket p.id (fun p => { p with link := none })).after (t - s.now) (.routerHop p.id)

/-- The packet goes out of a port: on its link, or waiting for it. -/
def State.outBy (s : State) (p : Packet) (dst port : Nat) : State :=
  let s := s.modPacket p.id (fun p => { p with port := some port })
  if s.behind p then s
  else
    if p.bulk then
      match s.bulkLink port with
      | some (n, t) => if (s.inTheWay p n).isEmpty then t.leave p n else s.tryLeave p n
      | none => s
    else match s.flowLink p dst port with
      | some n => if (s.link n).st = .up then s.tryLeave p n else s.modPacket p.id (fun p => { p with link := some n })
      | none => s

/-- The port that a packet has been given and waits for, while it stays usable (R349, R359). -/
def State.portKept (s : State) (p : Packet) : Option Nat := p.port.filter s.usable

/-- One decision of this package's routers about a packet (R349). A packet that waits for its port is not routed again
while the port is usable, so that it makes a detour at most once here. -/
def execRouterHop (packet : Nat) (s : State) : Out :=
  match s.findPacket packet with
  | none => .next s
  | some p =>
    if p.sent || p.link.isSome then .next s
    else if !s.packetLive p then .next (s.forgetPacket packet)
    else
      let dst := s.target p
      .next (match (s.portKept p).elim (s.route p dst) Route.port with
        | .refuse => s.refusePacket p 6
        | .deliver => (s.forgetPacket packet).performPacket p
        | .port port => s.outBy p dst port
        | .detour port dim =>
          let s := s.modPacket packet (fun p => { p with detours := p.detours + 1, order := p.order.filter (· != dim) ++ [dim] })
          s.outBy p dst port)

/-- Packets that wait for no link look again. -/
def State.rerouteWaiting (s : State) : State :=
  s.pushAll ((s.fabric.packets.filter (fun p => !p.sent && p.link.isNone)).map (fun p => .routerHop p.id))

/-- A request's timer runs out (R356): not while its link is PAUSED or TRAINING, when it starts again from zero. -/
def execFabricTimeout (packet : Nat) (s : State) : Out :=
  match s.findPacket packet with
  | none => .next s
  | some p =>
    if !s.packetLive p then .next (s.forgetPacket packet)
    else if !p.sent || s.now < p.start + p.limit then .next s
    else if p.link.any (fun n => let l := s.link n; l.st == .paused || l.st == .training) then .next s
    else .next (s.refusePacket p 7)

/-! ## Links going up and down (R352, R358, R359) -/

/-- The packets of a link leave in order, and the timers of those that had left start again. -/
def State.flushLink (s : State) (n : Nat) : State :=
  let mine := s.fabric.packets.filter (fun p => p.link == some n)
  mine.foldl (fun s p => if p.sent then s.startTimer p.id n else s.tryLeave p n) s

/-- Settled links of an X-die let its held clock change go on (R361). -/
def State.askClock (s : State) (xdie : Nat) : State :=
  if (FMap.find s.fabric.rclkHeld xdie).isSome then (s.push (.rclkApply xdie)).after 10000 (.rclkApply xdie) else s

/-- A link comes UP with its live lanes. The width that its first training gives, that of bring-up, is no change (R348). -/
def State.linkUp (s : State) (n live : Nat) : State :=
  let w := widthOf live
  let s := s.modLink n (fun x =>
    let x := if x.width = w || !x.trained then x else x.count
    { x with st := .up, live := live, width := w, upSince := some s.now, kept := false, full := false, trained := true,
             trainAt := none, resends := 0 })
  (((s.restartPort (n / 4)).flushLink n).askClock (xdieOfLink (n % 4))).rerouteWaiting

/-- No training of a link is under way any more: its end is due neither later nor now. -/
def State.endTraining (s : State) (n : Nat) : State :=
  let other := fun (e : Event) =>
    match e with
    | .linkTrainingDone p l _ => !(p == n / 4 && l == n % 4)
    | _ => true
  { s with timers := s.timers.filter (fun t => other t.ev), agenda := s.agenda.filter other }

/-- A link goes DOWN (R359): flits that no router has acknowledged move to the other links of the port, and what had not left
is routed again. The timers that its pause or training has stopped, of packets whose flits have gone on, start again (log
entry 112). -/
def State.linkDown (s : State) (n : Nat) : State :=
  let st := (s.link n).st
  let gone := (s.retryBuffer n).map (·.id)
  let sent := if st == .paused || st == .training then
      s.fabric.packets.filter (fun p => p.link == some n && p.sent && !gone.contains p.id) else []
  let s := sent.foldl (fun s p => s.startTimer p.id n) s
  let s := (s.endTraining n).modLink n (fun x =>
    let x := if x.st = .down then x else x.count
    { x with st := .down, live := 0, width := 3, kept := false, marked := false, want := false, full := false, trained := true,
             trainAt := none })
  let s := s.modFabric (fun b => { b with packets := b.packets.map (fun (p : Packet) =>
    if p.link == some n && (!p.sent || gone.contains p.id) then { p with link := none, sent := false } else p) })
  ((s.restartPort (n / 4)).rerouteWaiting).askClock (xdieOfLink (n % 4))

/-- A link changes its width (R358): it is PAUSED, then TRAINING, and UP within 60 µs; when, and with what success, is open.
A link that is not in use trains at once. -/
def State.train (s : State) (n : Nat) (lanes : Nat) : State :=
  let port := n / 4
  let link := n % 4
  let pause := if (s.link n).st == .up then Config.freeCode s.freeCtr (n + 96) % 1001 else 0
  let s := (s.endTraining n).modLink n (fun x => { x with
    st := if pause = 0 then .training else .paused, trainAt := if pause = 0 then none else some (s.now + pause),
    kept := x.carries, want := false, full := false, trained := true,
    marked := x.marked || (FMap.find s.fabric.rclkHeld (xdieOfLink link)).isSome })
  let live := if Config.freeCode s.freeCtr n % 2 = 0 then lanes else 0
  (s.restartPort port).after (pause + Config.freeCode s.freeCtr (n + 32) % (60001 - pause))
    (.linkTrainingDone port link (BitVec.ofNat 4 live))

/-- A full retrain tries all four lanes, and which of them work is open; one that has just failed does not (R352, R358). -/
def State.trainFull (s : State) (n lost : Nat) : State :=
  (s.train n (Config.freeCode s.freeCtr (n + 64) % 16 &&& (15 - lost))).modLink n (fun x => { x with full := true })

/-- A link of this package that its X-die carries and that exists. -/
def State.linkHere (s : State) (port link : Nat) : Bool :=
  port < 8 && link < 4 && s.xdieUp (xdieOfLink link) && (s.neighbour s.fabric.coord port).isSome

/-- The lane is in use: at two lanes with three live ones, which two are used is open. -/
def State.laneUsed (s : State) (n lane : Nat) : Bool :=
  let l := s.link n
  bitAt l.live lane && (l.width != 1 || liveCount l.live == 2 || Config.freeCode s.freeCtr n % 2 == 0)

/-- A lane fails (R358). -/
def execLaneLoss (port link lane : Nat) (s : State) : Out :=
  let n := 4 * port + link
  if !s.linkHere port link || 4 ≤ lane then .next s
  else
    let used := s.laneUsed n lane
    let live := (s.link n).live &&& (15 - 2 ^ lane)
    let s := s.modLink n (fun x => { x with live := live })
    let again := if (s.link n).full then s.trainFull n (2 ^ lane) else if live = 0 then s.linkDown n else s.train n live
    match (s.link n).st with
    | .up => .next (if !used then s else if live = 0 then s.linkDown n else s.train n live)
    | .paused =>
      .next (if (s.link n).trainAt.isSome then again else if !used then s else if live = 0 then s.linkDown n
        else s.modLink n (fun x => { x with want := true }))
    | .training => .next again
    | _ => .next s

/-- RETRAIN written: a full retrain, after the pause of a clock change that is under way (R352, R361). -/
def execRetrain (port link : Nat) (s : State) : Out :=
  let n := 4 * port + link
  if !s.linkHere port link then .next s
  else if (s.link n).st = .paused ∧ (s.link n).trainAt.isNone then .next (s.modLink n (fun x => { x with want := true, full := true }))
  else .next (s.trainFull n 0)

/-- Training ends: UP at the width of its live lanes, or DOWN. The first training of a link is that of bring-up (17_retire
R412 step 3). -/
def execLinkTrainingDone (port link : Nat) (live : BitVec 4) (s : State) : Out :=
  let n := 4 * port + link
  let l := s.link n
  if !s.linkHere port link || !(l.st == .training || l.trainAt.isSome || (l.st == .down && !l.trained)) then .next s
  else .next (if live = 0 then s.linkDown n else s.linkUp n live.toNat)

/-- The failures of one flit on a link: of the packet of this package that has stood longest in its retry buffer, or of
traffic that passes through. -/
def State.resends (s : State) (n : Nat) : Nat :=
  match s.retryBuffer n with
  | p :: _ => p.resends
  | [] => (s.link n).resends

/-- A flit is resent until it arrives intact; the sixteenth failure of it takes its link DOWN (R355). It is a flit of the
oldest packet in the retry buffer, which stays there; with none of this package it is one that passes through, and whether it
is the one that failed before is open (log entry 112). -/
def execFlitCrcResend (port link : Nat) (s : State) : Out :=
  let n := 4 * port + link
  if !s.linkHere port link || (s.link n).st != .up then .next s
  else
    let s := match s.retryBuffer n with
      | p :: _ => s.modPacket p.id (fun p => { p with
          resends := p.resends + 1, acked := max p.acked (s.now + 1 + Config.freeCode s.freeCtr p.id) })
      | [] => s.modLink n (fun x => { x with
          resends := if Config.freeCode s.freeCtr n % 2 = 0 then x.resends + 1 else 1 })
    .next (if 16 ≤ s.resends n then s.push (.flitResendLimit port link) else s)

def execFlitResendLimit (port link : Nat) (s : State) : Out :=
  let n := 4 * port + link
  .next (if s.linkHere port link && 16 ≤ s.resends n then s.linkDown n else s)

/-- A write of WEIGHT and WOVR (R354). -/
def execLinkWeightWrite (port link : Nat) (wovr : Bool) (weight : BitVec 4) (s : State) : Out :=
  if 8 ≤ port || 4 ≤ link || !s.xdieUp (xdieOfLink link) then .next s
  else .next (((s.modLink (4 * port + link) (fun x => { x with wovr := wovr, weight := weight.toNat })).restartPort
    port).rerouteWaiting)

/-! ## The router clock (R361) -/

def linksOfXdie (xdie : Nat) : List Nat := (List.range 32).filter (fun n => xdieOfLink (n % 4) == xdie)

/-- A request to change the clock of every X-die is held until the links of each have settled. -/
def execRclk (xdie : Nat) (code : BitVec 2) (s : State) : Out :=
  if !s.xdieUp xdie || code = 3 then .next s
  else
    let s := s.modFabric (fun b => { b with rclk := code.toNat })
    let up := [12, 13].filter s.xdieUp
    let s := up.foldl (fun (s : State) x =>
      let busy := (linksOfXdie x).filter (fun n => (s.link n).st == .paused || (s.link n).st == .training)
      let s := busy.foldl (fun (s : State) n => s.modLink n (fun l => { l with marked := true })) s
      s.modFabric (fun b => { b with rclkHeld := FMap.set x code.toNat b.rclkHeld })) s
    .next (s.pushAll (up.map (fun x => .rclkApply x)))

/-- A width change of a link of the X-die is asked for in the same moment: it goes first (R361). -/
def State.widthDue (s : State) (xdie : Nat) : Bool :=
  s.agenda.any (fun e =>
    match e with
    | .retrain _ l | .laneLoss _ l _ | .linkTrainingDone _ l _ => xdieOfLink l == xdie
    | .controlRegisterWrite .. => true
    | _ => false)

/-- The held change applies: every link of the X-die pauses for 2 µs. -/
def execRclkApply (xdie : Nat) (s : State) : Out :=
  match FMap.find s.fabric.rclkHeld xdie with
  | none => .next s
  | some code =>
    if s.widthDue xdie then .next (s.push (.rclkApply xdie)) else
    let ls := linksOfXdie xdie
    let waits := ls.any (fun n =>
      let l := s.link n
      l.st == .paused || l.st == .training || (l.marked && l.st == .up && l.upSince.any (fun u => decide (s.now < u + 10000))))
    if waits then .next s
    else
      let s := s.modFabric (fun b => { b with
        rclkHeld := FMap.drop xdie b.rclkHeld, rclkApplying := FMap.set xdie true b.rclkApplying,
        clocks := FMap.set xdie code b.clocks })
      let s := ls.foldl (fun (s : State) n => s.modLink n (fun l =>
        { l with marked := false, st := if l.st = .up then .paused else l.st })) s
      .next (((List.range 8).foldl State.restartPort s).after 2000 (.rclkPauseEnd xdie))

/-- After the pause the links are UP again; a retrain that was asked for meanwhile starts. -/
def execRclkPauseEnd (xdie : Nat) (s : State) : Out :=
  if !FMap.get false s.fabric.rclkApplying xdie then .next s
  else
    let s := s.modFabric (fun b => { b with rclkApplying := FMap.drop xdie b.rclkApplying })
    .next ((linksOfXdie xdie).foldl (fun (s : State) n =>
      let l := s.link n
      if l.st ≠ .paused ∨ l.trainAt.isSome then s
      else if l.want then if l.full then s.trainFull n 0 else if l.live = 0 then s.linkDown n else s.train n l.live
      else s.linkUp n l.live) s)

/-! ## The fence list and the loss of an X-die -/

/-- A write of a fence entry by the service processors; both X-dies hold the list (R348). -/
def execFenceListWrite (index : Nat) (value : BitVec 16) (s : State) : Out :=
  if 64 ≤ index || !(s.xdieUp 12 || s.xdieUp 13) then .next s
  else .next (s.modFabric (fun b => { b with fence := FMap.set index (value &&& 0x9FFF) b.fence }))

/-- The loss of an X-die (R360): its links are DOWN at the same moment, what its queues held times out at its issuers, the
survivor serves every ring from its LQHEAD (02_launch R36), and its heartbeats stop (16_recovery R395). -/
def execXdieLoss (xdie : Nat) (s : State) : Out :=
  if !s.xdieUp xdie then .next s
  else
    let ls := linksOfXdie xdie
    let held := s.fabric.packets.filter (fun p => !p.sent && p.link.any ls.contains)
    let s := held.foldl (fun (s : State) p => s.startTimer p.id (p.link.getD 0)) s
    let s := s.modFabric (fun b => { b with packets := b.packets.map (fun (p : Packet) =>
      if p.link.any ls.contains then { p with acked := s.now } else p) })
    let s := s.modFabric (fun b => { b with
      xdieLost := FMap.set xdie true b.xdieLost, rclkHeld := FMap.drop xdie b.rclkHeld,
      rclkApplying := FMap.drop xdie b.rclkApplying })
    let s := ls.foldl State.linkDown s
    let s := s.pushAll ((s.parts.filter (fun p => p.2.cfg.lqhead != p.2.cfg.lqtail)).map (fun p => .launchAdmission p.1))
    .next (s.after 10000 (.heartbeat xdie))

end Machine
end Sys2Proof
end

