-- ==== Sys2Proof/Machine/Recovery.lean ====
section
/-!
DEFINITION. Recovery (16_recovery R393 to R404; 04_placement R75): heartbeats and diagnoses, the fence and the map switch of
a lost die, sparing, the rebuild of stripe groups, lost packages, soft errors, the watchdog, and the scheduler commands.
-/
namespace Sys2Proof
namespace Machine

/-! ## Stripe groups (R399 to R401) -/

/-- The group tables agree on every die that holds a member (12_copy R322). -/
def State.groupAt (s : State) (die g : Nat) : EcgEntry := FMap.get {} (s.dieAt die).ecg g

/-- A die that holds the table of a group. -/
def State.groupDie (s : State) (g : Nat) : Nat := ((List.range 12).find? (fun d => (s.groupAt d g).valid)).getD 0

def State.modRebuild (s : State) (f : Rebuild → Rebuild) : State := s.modPkg (fun p => { p with rebuild := f p.rebuild })

/-- Every chunk of the members that lie on a logical die of this package is lost, on whichever physical die it stands. -/
def State.loseDie (s : State) (die : Nat) : State :=
  (s.dieAt die).ecg.foldl (fun s e =>
    let ms := (List.range (e.2.k + e.2.p)).filter (fun m =>
      let a := s.plainSpa (s.chunkSpa die e.1 m 0)
      !spaFabric a && spaDie a == die)
    if !e.2.valid || ms.isEmpty then s
    else
      let s := s.modRebuild (fun r => (List.range e.2.size).foldl (fun r c =>
        ms.foldl (fun r m => r.lose s.now e.1 c m 7 die) r) r)
      s.note (.degraded e.1)) s

/-- The inverse of a byte of GF(2^8). -/
def gfInv (x : Nat) : Nat := ((List.range 256).find? (fun y => gfMul x y == 1)).getD 0

def xorAll (l : List Nat) : Nat := l.foldl (fun a b => a ^^^ b) 0

/-- One byte of lost member `m`, from the bytes `b` of the members that survive (12_copy R324): K data members and parity
members from K on. -/
def rebuildByte (k : Nat) (lost : List Nat) (b : Nat → Nat) (m : Nat) : Nat :=
  let live := (List.range k).filter (fun i => !lost.contains i)
  let s0 := fun (_ : Unit) => b k ^^^ xorAll (live.map b)
  let s1 := fun (_ : Unit) => b (k + 1) ^^^ xorAll (live.map (fun i => gfMul (gfCoef 1 i) (b i)))
  let data := fun (i : Nat) =>
    if !lost.contains i then b i
    else match lost.filter (fun j => j < k && j != i) with
      | [] => if lost.contains k then gfMul (gfInv (gfCoef 1 i)) (s1 ()) else s0 ()
      | j :: _ => gfMul (gfInv (gfCoef 1 i ^^^ gfCoef 1 j)) (s1 () ^^^ gfMul (gfCoef 1 j) (s0 ()))
  if m < k then data m else xorAll ((List.range k).map (fun i => gfMul (gfCoef (m - k) i) (data i)))

/-- Byte `i` of a chunk of a member; what a member in another package holds is open. -/
def State.chunkByte (s : State) (die g c m i : Nat) : Nat :=
  let h := s.home (s.chunkSpa die g m c)
  if h.outside then (Config.freeWord s.freeCtr (s.chunkSpa die g m c + i)).toNat % 256
  else (Memory.read s.mem (h.key + i)).toNat

/-- Accesses that wait on a stripe group are tried again. -/
def State.wakeStripe (s : State) (d : Stripe) : State :=
  let ms := s.msgs.filter (fun m => m.st == .waiting && s.stripeHas m.spa d)
  let fills := s.slots.filterMap (fun e =>
    match e.2.hold with
    | some (.fill l _) => if s.stripeHas (l * 32) d then some (Event.l1Fill (coreOfSlot e.1) l) else none
    | _ => none)
  let s := ms.foldl (fun (s : State) m => s.modMsg m.id (fun m => { m with st := .sent })) s
  let s := s.modRebuild (fun r => { r with waitingOn := r.waitingOn.filter (fun w => w != (d.group, d.chunk)) })
  s.pushAll (ms.map (fun m => .homeAccess m.id) ++ fills)

/-- Jobs with a range in a group. -/
def State.jobsIn (s : State) (g : Nat) : List Job :=
  s.jobs.filter (fun j => (List.range 12).any (fun d => (s.rangesOf d j.asid).any (fun e => e.ecg == g)))

/-- Stripe groups that have lost more than P members are marked lost, and the jobs with a range on them park, each with its own
in its report (R401). -/
def State.markLost (s : State) : State :=
  let dead := fun (d : Stripe) => (s.groupAt (s.groupDie d.group) d.group).p < d.members.length
  let gone := s.pkg.rebuild.due.filter dead
  if gone.isEmpty then s
  else
    let s := s.modRebuild (fun r => { r with due := r.due.filter (fun d => !dead d), gone := r.gone ++ gone })
    let s := gone.foldl State.wakeStripe s
    let hit := s.jobs.filter (fun j => gone.any (fun d => (s.jobsIn d.group).any (fun i => i.num == j.num)))
    hit.foldl (fun s j =>
      let own := gone.filter (fun d => (s.jobsIn d.group).any (fun i => i.num == j.num))
      let cause := (own.getLast?.map (fun d => (d.fcode, d.element))).getD (4, 0)
      (s.parkJob j.num cause.1 cause.2).note (.lostStripes j.num (own.map (fun d => (d.group, d.chunk))))) s

/-- Stripe group `a` comes before `b`: one that is waited for, one that the most recent failure touches, one with more lost
members, then the lower group and chunk (R399). -/
def Rebuild.before (r : Rebuild) (a b : Stripe) : Bool :=
  let w := fun (d : Stripe) => r.waitingOn.contains (d.group, d.chunk)
  if w a != w b then w a
  else if (a.hit == r.latest) != (b.hit == r.latest) then a.hit == r.latest
  else if a.members.length != b.members.length then b.members.length < a.members.length
  else if a.group != b.group then a.group < b.group else a.chunk < b.chunk

/-- The homes of a stripe group's lost members serve accesses. -/
def State.placedStripe (s : State) (d : Stripe) : Bool :=
  d.members.all (fun m =>
    let h := s.home (s.chunkSpa (s.groupDie d.group) d.group m d.chunk)
    h.outside || (s.dieCode h.die == 0 && !(s.dieAt h.die).lost))

def State.nextStripe (s : State) : Option Stripe :=
  (s.pkg.rebuild.due.filter s.placedStripe).foldl (fun b d =>
    match b with
    | some c => if s.pkg.rebuild.before d c then some d else some c
    | none => some d) none

/-- Survivors of a stripe group that cannot be read: an uncorrectable word, a lost die. -/
def State.deadSurvivors (s : State) (d : Stripe) : List Nat :=
  let die := s.groupDie d.group
  let g := s.groupAt die d.group
  (List.range (g.k + g.p)).filter (fun m =>
    let h := s.home (s.chunkSpa die d.group m d.chunk)
    !d.members.contains m && !h.outside && (s.isBad h.key 256 || s.dieCode h.die != 0 || (s.dieAt h.die).lost))

/-- The lost chunks of one stripe group are computed and written. -/
def State.rebuildStripe (s : State) (d : Stripe) : State :=
  let die := s.groupDie d.group
  let g := s.groupAt die d.group
  let bytes := d.members.map (fun m => (m, (List.range 256).map (fun i =>
    BitVec.ofNat 8 (rebuildByte g.k d.members (fun n => s.chunkByte die d.group d.chunk n i) m))))
  let s := bytes.foldl (fun (s : State) b =>
    let h := s.home (s.chunkSpa die d.group b.1 d.chunk)
    if h.outside then s else s.store h.key b.2) s
  let s := s.modRebuild (fun r => { r with due := r.due.filter (fun e => e != d) })
  s.wakeStripe d

/-- One stripe group is rebuilt; the next one follows (R399). -/
def execStripeGroupRebuild (s : State) : Out :=
  let s := s.markLost
  match s.nextStripe with
  | none => .next s
  | some d =>
    match s.deadSurvivors d with
    | [] => .next ((s.rebuildStripe d).after 1 .stripeGroupRebuild)
    | ms => .next ((s.modRebuild (fun r => ms.foldl (fun r m =>
        r.lose s.now d.group d.chunk m 4 (s.home (s.chunkSpa (s.groupDie d.group) d.group m d.chunk)).die) r)).push .stripeGroupRebuild)

/-! ## Fence and switch of a die (R75, R397, R404) -/

def State.modMap (s : State) (die : Nat) (f : MapEntry → MapEntry) : State :=
  s.modPkg (fun p => { p with map := FMap.set die (f (FMap.get {} p.map die)) p.map })

/-- Tasks with slots, work-list entries or a matrix context on a die (Table 16-8). -/
def State.tasksOnDie (s : State) (die : Nat) : List Task :=
  s.tasks.filter (fun t =>
    (s.slotsOf t.id).any (fun k => dieOfSlot k == die) ||
    s.cores.any (fun c => dieOfCore c.1 == die &&
      (c.2.work.any (fun w => w.1 == t.id) || c.2.mat.owner.any (fun b => b.task == t.id))))

/-- What of a task is left on a lost die is given up: in a job that parks it waits, ROLLED-BACK, for system software. -/
def State.loseTask (s : State) (id : Nat) : State :=
  let s := (s.discardChildren id).strip id
  s.modTask id (fun t => { t.unplaced with st := .rolledBack, parked := true, lastFault := 7 })

/-- Redirect entries whose target is a package's physical die are cleared. -/
def State.clearRedirects (s : State) (hit : Redirect → Bool) : State :=
  s.modFabric (fun f => { f with redirects := f.redirects.map (fun (e : Nat × Redirect) =>
    (e.1, if hit e.2 then { e.2 with valid := false } else e.2)) })

/-- Accesses that wait at a die in retry lists, for registers and in the buffers of its ORDERED banks come back: after the fence
they are refused (R75). -/
def State.refuseWaiting (s : State) (die : Nat) : State :=
  let ms := s.msgs.filter (fun m => m.st == .waiting && !(s.home m.spa).outside && (s.home m.spa).die == die)
  let event := fun (m : Msg) => if m.kind = .write ∧ (s.home m.spa).win = .reg then Event.regWindowWrite m.id else .homeAccess m.id
  let boxes := s.boxes.filterMap (fun b => b.waitsAt.bind (fun w => if dieOfCore w.1 = die then some w.2 else none))
  let held := (s.dieAt die).banks.flatMap (fun b => b.2.buf.map Event.orderedPacketArrival)
  (ms.foldl (fun (s : State) m => s.modMsg m.id (fun m => { m with st := .sent })) s).pushAll (ms.map event ++ boxes ++ held)

/-- Steps 4 and 5 of Table 16-9. The switch follows within its bound, counted from the first evidence. Until then the logical
die has no physical die (17_retire Table 17-6). -/
def State.fenceDie (s : State) (die t0 : Nat) : State :=
  let e := s.mapAt die
  let at' := if e.remote then e.pkg else s.fabric.coord
  let s := (s.modMap die (fun e => { e with fenced := true, remote := false })).clearRedirects (fun r =>
    r.sdie != 15 && r.tpkg == at' && r.tphys == e.phys)
  let s := s.modPkg (fun p => { p with status := { p.status with degraded := true } })
  let held := (s.dieAt die).heldReqs
  let hit := s.tasksOnDie die
  let saved := s.tasks.filter (fun t => t.st == .preempted && t.saves.any (fun a => dieOfCore a.core == die))
  let jobs := ((hit ++ saved).map (·.job)).eraseDups
  let s := ((s.modDie die (fun d => { d with heldReqs := [], hitJobs := jobs })).pushAll (held.map (fun m => .homeAccess m))).refuseWaiting die
  let s := (s.note (.reported 7 die)).elementFault (.die die) 7 hit
  let s := (s.tasksOnDie die).foldl (fun s t => s.loseTask t.id) s
  let s := saved.foldl (fun s t => if (s.taskAt t.id).st = .preempted then s.containedFault t.id 1 else s) s
  let s := s.loseDie die
  let kind := fun (p : Nat) => (p < 9) == decide (die < 8)
  let bound := if s.pkg.localSpares.any kind then 600000 else 1000000
  { s with timers := s.timers ++ [⟨max s.now (t0 + bound), .dieMapSwitch die⟩] }

/-- Distance between packages by the routing of R349. -/
def State.hops (s : State) (x y : Nat) : Nat :=
  let line := fun (a b : Nat) => if a ≤ b then b - a else a - b
  let ring := fun (n a b : Nat) => min ((b + n - a) % max n 1) ((a + n - b) % max n 1)
  line (coordPart x 0) (coordPart y 0) + line (coordPart x 1) (coordPart y 1) +
    ring s.fabric.nc (coordPart x 2) (coordPart y 2) + ring s.fabric.nd (coordPart x 3) (coordPart y 3)

/-- The nearest of some packages, the lowest coordinate at a tie. -/
def State.nearest (s : State) (x : Nat) (ps : List Nat) : Option Nat :=
  ps.foldl (fun b p =>
    match b with
    | some q => if s.hops x p < s.hops x q || (s.hops x p == s.hops x q && decide (p < q)) then some p else some q
    | none => some p) none

/-- The physical dies of a die's kind. -/
def kindDies (die : Nat) : List Nat := if die < 8 then List.range 9 else (List.range 14).drop 9

/-- Spare packages that are listed for some jobs; for a loss that hits no job, those of every job (R397, R398, R403). -/
def State.listedFor (s : State) (jobs : List Nat) : List Nat :=
  ((s.jobs.filter (fun j => jobs.isEmpty || jobs.contains j.num)).flatMap (·.spares)).eraseDups

/-- A physical die of another package that serves as a spare already. -/
def State.physUsed (s : State) (pkg phys : Nat) : Bool :=
  s.fabric.redirects.any (fun r => r.2.valid && r.2.sdie != 15 && r.2.tpkg == pkg && r.2.tphys == phys) ||
    s.pkg.map.any (fun e => e.2.remote && e.2.pkg == pkg && e.2.phys == phys)

/-- A physical die of package `p` that can take the place of a die: one of its kind; which of several is open. -/
def State.sparePhys (s : State) (die p : Nat) : Option Nat :=
  let free := (kindDies die).filter (fun n => !s.physUsed p n)
  free[Config.freeCode s.freeCtr (16 * p + die + 131072) % max free.length 1]?

/-- A package has been lost, or stands as a whole for one that has. -/
def State.pkgTaken (s : State) (p : Nat) : Bool :=
  s.pkg.pkgLosses.any (fun l => l.1 == p) || s.fabric.redirects.any (fun r => r.2.valid && r.2.sdie == 15 && r.2.tpkg == p)

/-- Packages that offer a remote spare for die `die` of package `x`: those listed for the jobs that the loss hits, and those
packages of a job that have a die to spare, which this package cannot tell (log entry 77). -/
def State.remoteSpares (s : State) (x die : Nat) (jobs : List Nat) : List Nat :=
  (List.range 8192).filter (fun p => p != x && p != s.fabric.coord && s.inShape p && !s.fencedPkg p && !s.pkgTaken p &&
    (s.sparePhys die p).isSome &&
    ((s.listedFor jobs).contains p || Config.freeCode s.freeCtr (16 * p + die) % 2 == 1))

/-- A free redirect entry takes a redirect; without one a package redirect takes the place of a die redirect. -/
def State.addRedirect (s : State) (r : Redirect) : State :=
  let entry := fun (n : Nat) => FMap.get {} s.fabric.redirects n
  match (List.range 32).find? (fun n => !(entry n).valid) with
  | some n => s.modFabric (fun f => { f with redirects := FMap.set n r f.redirects })
  | none =>
    match if r.sdie = 15 then (List.range 32).find? (fun n => (entry n).sdie != 15) else none with
    | some n => s.modFabric (fun f => { f with redirects := FMap.set n r f.redirects })
    | none => s

/-- A die's cores, clusters and memories as a wiped spare has them (R397); full/empty bits of protected chunks return with
the rebuild (R399). -/
def State.wipeDie (s : State) (die : Nat) : State :=
  let here := fun (a : Nat) => fieldAt a 42 4 == die
  let guarded := fun (a : Nat) => s.pkg.rebuild.due.any (fun d => s.stripeHas a d)
  { s with
    mem := s.mem.filter (fun c => !here c.1), bad := s.bad.filter (fun w => !here (8 * w)),
    full := s.full.filter (fun w => !here (8 * w) || guarded (8 * w)),
    pkg := { s.pkg with ciphers := s.pkg.ciphers.filter (fun b => !here (16 * b.1) || guarded (16 * b.1)) },
    cores := s.cores.filter (fun c => dieOfCore c.1 != die),
    clusters := s.clusters.filter (fun q => q.1 / 64 != die),
    slots := s.slots.filter (fun k => dieOfSlot k.1 != die),
    wbs := s.wbs.filter (fun w => dieOfCore w.core != die) }

/-- A job is released from parking; records that waited for it are checked again. -/
def State.releaseJob (s : State) (job : Nat) : State :=
  match s.findJob job with
  | none => s
  | some j =>
    let s := s.modJob job (fun j => { j with parkedFor := none, wants := [] })
    (s.unquietPart j.part).push (.heldRecordRecheck j.part)

/-- A die, or a package (16 and its coordinate), has found its spare: jobs that parked for want of it go on. -/
def State.spareFound (s : State) (die : Nat) : State :=
  let waiting := s.jobs.filter (fun j => j.wants.contains die)
  waiting.foldl (fun (s : State) j =>
    let left := j.wants.filter (fun d => d != die)
    if !left.isEmpty then s.modJob j.num (fun j => { j with wants := left })
    else
      let s : State := { s with tasks := s.tasks.map (fun (t : Task) =>
        if t.job = j.num ∧ (t.st = .preempted ∨ t.st = .swapped) then { t with parked := false } else t) }
      let lost := s.tasks.filter (fun t => t.job == j.num && t.parked && t.st == .rolledBack)
      (lost.foldl (fun s t => s.restart t.id) s).releaseJob j.num) s

/-- A job parks for want of a spare, unless it has parked for it already. -/
def State.parkFor (s : State) (job fcode element want : Nat) : State :=
  if (s.findJob job).any (fun j => j.wants.contains want) then s
  else (s.parkJob job fcode element).modJob job (fun j => { j with wants := j.wants ++ [want] })

/-- At the agreed time every router of the package takes the new entry (the redirect entries of R397 go to the routers of the
job's other packages, whose service processors write them): a local spare of the die's kind, else the nearest remote one; with
none, the jobs that the loss hit park (R75, R397, R402). -/
def execDieMapSwitch (die : Nat) (s : State) : Out :=
  if 12 ≤ die || !(s.mapAt die).fenced then .next s
  else
    let kind := fun (p : Nat) => (p < 9) == decide (die < 8)
    let go := fun (s : State) (e : MapEntry) =>
      let s := (s.wipeDie die).modMap die (fun _ => e)
      let s := s.modDie die (fun d =>
        { d with lost := false, missed := 0, evidence := none, hitJobs := [], banks := [], corrected := [] })
      let s := s.modPkg (fun p => { p with status := { p.status with
        degraded := (List.range 12).any (fun d => (s.mapAt d).fenced) } })
      let s := s.spareFound die
      let s := s.parts.foldl (fun (s : State) p => s.retryRing p.1) s
      .next (s.push .stripeGroupRebuild)
    match s.pkg.localSpares.find? kind with
    | some p =>
      go (s.modPkg (fun k => { k with localSpares := k.localSpares.erase p })) { valid := true, phys := p }
    | none =>
      let jobs := (s.dieAt die).hitJobs
      match s.nearest s.fabric.coord (s.remoteSpares s.fabric.coord die jobs) with
      | some p => go s { valid := true, remote := true, pkg := p, phys := (s.sparePhys die p).getD 0 }
      | none => .next (jobs.foldl (fun (s : State) j => s.parkFor j 7 die die) s)

/-! ## Heartbeats and diagnoses (R395, R396) -/

/-- The loss of a C-die or H-die, or of the remote spare that serves as it (R400): nothing of it runs or answers, and its
heartbeats stop. -/
def execDieLoss (die : Nat) (s : State) : Out :=
  if !Config.isComputeDie die || !s.liveDies.contains die || (s.dieAt die).lost then .next s
  else .next ((s.modDie die (fun d => { d with lost := true, missed := 0 })).after 10000 (.heartbeat die))

def State.silent (s : State) (die : Nat) : Bool :=
  if die < 12 then (s.dieAt die).lost else FMap.get false s.fabric.xdieLost die

/-- The time of a heartbeat: the first missed one is the first evidence, three open a diagnosis. -/
def execHeartbeat (die : Nat) (s : State) : Out :=
  if 14 ≤ die then .next s
  else if !s.silent die then .next (s.modDie die (fun d => { d with missed := 0, evidence := none }))
  else
    let s := s.modDie die (fun d =>
      { d with missed := d.missed + 1, evidence := if d.missed = 0 then some s.now else d.evidence })
    if (s.dieAt die).missed < 3 then .next (s.after 10000 (.heartbeat die))
    else .next ((s.modDie die (fun d => { d with missed := 0 })).push (.diagnosisOpen (if die < 12 then .die else .xdie) die))

def State.findDiag (s : State) (id : Nat) : Option Diagnosis := s.pkg.diags.find? (fun d => d.id == id)
def State.modDiag (s : State) (id : Nat) (f : Diagnosis → Diagnosis) : State :=
  s.modPkg (fun p => { p with diags := p.diags.map (fun d => if d.id = id then f d else d) })
def State.dropDiag (s : State) (id : Nat) : State := s.modPkg (fun p => { p with diags := p.diags.filter (fun d => d.id != id) })

/-- The element of a diagnosis does not answer; of elements that this package does not hold it is open. -/
def State.elementDead (s : State) (d : Diagnosis) : Bool :=
  if d.cls = .die ∨ d.cls = .xdie then s.silent d.element else Config.freeCode s.freeCtr d.element % 2 == 1

/-- One X-die is lost: the service-processor pair is degraded. -/
def State.degradedPair (s : State) : Bool := !(s.xdieUp 12 && s.xdieUp 13)

/-- Neighbour packages on ports with a link UP. -/
def State.neighbours (s : State) : List Nat :=
  ((List.range 8).filterMap (fun p =>
    if (portLinks p).any (fun n => (s.link n).st == .up) then s.neighbour s.fabric.coord p else none)).eraseDups

def State.needed (s : State) (d : Diagnosis) : Nat := if s.degradedPair || d.cls == .xdie then 3 else 2

/-- A diagnosis is made, at first or again: both service processors agree within 100 µs or do not. An FC-XDIE is the
survivor's alone. -/
def State.startDiag (s : State) (d : Diagnosis) : State :=
  let s := s.modDiag d.id (fun d => { d with step := 1, confirms := 0, denies := 0 })
  let s := s.after 100000 (.pairAgreementTimeout d.id)
  if s.elementDead d || s.degradedPair then s.push (.pairAgreement d.id) else s

/-- The time of the first evidence of a diagnosis: the first missed heartbeat of a die, else the report that opens it. -/
def State.firstEvidence (s : State) (cls : FaultClass) (element : Nat) : Nat :=
  if cls = .die ∨ cls = .xdie then (s.dieAt element).evidence.getD s.now else s.now

def execDiagnosisOpen (cls : FaultClass) (element : Nat) (s : State) : Out :=
  if s.pkg.diags.any (fun d => d.cls == cls && d.element == element) then .next s
  else
    let d : Diagnosis := { id := s.fresh, cls := cls, element := element, t0 := s.firstEvidence cls element }
    .next ((s.bumpId.modPkg (fun p => { p with diags := p.diags ++ [d] })).startDiag d)

/-- Both service processors agree; the neighbours are asked, and the host for what replies they cannot give. -/
def execPairAgreement (diag : Nat) (s : State) : Out :=
  match s.findDiag diag with
  | none => .next s
  | some d =>
    if d.step ≠ 1 then .next s
    else
      let n := s.neighbours.length
      let count := n + if n < s.needed d then 1 else 0
      let s := s.modDiag diag (fun d => { d with step := 2, asked := count, replies := 0 })
      let s := s.after 200000 (.confirmationTimeout diag)
      let dead := s.elementDead d
      let asks := List.replicate count (Event.confirmationReply diag dead)
      .next { s with timers := s.timers ++ asks.map (fun e => ⟨s.now + 30000, e⟩) }

/-- Tasks of gangs with members in another package. -/
def State.tasksAt (s : State) (pkg : Nat) : List Task :=
  s.tasks.filter (fun t => t.st.begun && wideGang t &&
    (s.pkg.slices.find? (fun x => x.task == t.id)).any (fun x => x.packages.any (fun p => p.1 == pkg)))

/-- Jobs with a task that an element's loss would hit (Table 16-8); the loss of an X-die affects none. -/
def State.hitBy (s : State) (d : Diagnosis) : List Nat :=
  let ts := match d.cls with
    | .die => s.tasksOnDie d.element
    | .pkg => s.tasksAt d.element
    | .tray => s.tasks.filter (fun t => (List.range 4).any (fun a => (s.tasksAt (a * 2048 + d.element % 2048)).any (fun u => u.id == t.id)))
    | _ => []
  (ts.map (·.job)).eraseDups

/-- A diagnosis that fails a step is made again after 1 ms, three times; then the jobs concerned park. -/
def State.failDiag (s : State) (d : Diagnosis) : State :=
  if d.failures + 1 < 3 then
    (s.modDiag d.id (fun d => { d with failures := d.failures + 1, step := 0 })).after 1000000 (.diagnosisRetry d.id)
  else (s.hitBy d).foldl (fun s j => s.parkJob j d.cls.code d.element) (s.dropDiag d.id)

def execPairAgreementTimeout (diag : Nat) (s : State) : Out :=
  match s.findDiag diag with
  | none => .next s
  | some d => .next (if d.step = 1 then s.failDiag d else s)

def execDiagnosisRetry (diag : Nat) (s : State) : Out :=
  match s.findDiag diag with
  | none => .next s
  | some d => .next (if d.step = 0 then s.startDiag d else s)

/-- A diagnosis passes, and recovery starts. -/
def State.passDiag (s : State) (d : Diagnosis) : State :=
  let s := s.dropDiag d.id
  match d.cls with
  | .die => if d.element < 12 ∧ !(s.mapAt d.element).fenced then s.fenceDie d.element d.t0 else s
  | .pkg => s.push (.packageLossDiagnosis d.element 3)
  | .tray => s.push (.packageLossDiagnosis d.element 3)
  | c => s.note (.reported c.code d.element)

/-- The 200 µs are over: enough neighbours have confirmed, and none has denied, or the diagnosis fails. -/
def execConfirmationTimeout (diag : Nat) (s : State) : Out :=
  match s.findDiag diag with
  | none => .next s
  | some d => .next (if d.step ≠ 2 then s else if s.needed d ≤ d.confirms then s.passDiag d else s.failDiag d)

/-- A CONFIRM or DENY arrives. The host's answer counts as the replies that neighbours cannot give. The diagnosis passes when
every pair that was asked has replied, or at the end of the 200 µs in which a DENY may come. -/
def execConfirmationReply (diag : Nat) (confirm : Bool) (s : State) : Out :=
  match s.findDiag diag with
  | none => .next s
  | some d =>
    if d.step ≠ 2 then .next s
    else if !confirm then .next (s.failDiag { d with denies := d.denies + 1 })
    else
      let n := s.neighbours.length
      let worth := if n ≤ d.confirms then max (s.needed d - n) 1 else 1
      let d := { d with confirms := d.confirms + worth, replies := d.replies + 1 }
      .next (if s.needed d ≤ d.confirms ∧ d.asked ≤ d.replies then s.passDiag d
        else s.modDiag diag (fun e => { e with confirms := d.confirms, replies := d.replies }))

/-- The neighbours of another package. -/
def State.packagesBy (s : State) (x : Nat) : List Nat := ((List.range 8).filterMap (fun p => s.neighbour x p)).eraseDups
def State.neighboursOf (s : State) (x : Nat) : Nat := (s.packagesBy x).length

/-- The neighbours of a package that diagnose its loss: this one, and those others whose votes, which are open, confirm. -/
def State.voters (s : State) (x : Nat) : List Nat :=
  (s.packagesBy x).filter (fun q => q == s.fabric.coord || Config.freeCode s.freeCtr (8192 * x + q) % 2 == 1)

/-- A probe that this package made for a neighbour's diagnosis: it replies. An unanswered probe of a package all of whose
links here are DOWN diagnoses its loss; of the pairs that diagnose it the one with the lowest coordinate coordinates the vote
(R396). -/
def execNeighbourProbe (pkg element : Nat) (answered : Bool) (s : State) : Out :=
  let s := s.note (.probeReply pkg element (!answered))
  let ports := (List.range 8).filter (fun p => s.neighbour s.fabric.coord p == some pkg)
  let cut := !ports.isEmpty && ports.all (fun p => (portLinks p).all (fun n => (s.link n).st == .down))
  let lead := (s.voters pkg).foldl min s.fabric.coord
  .next (if !answered && cut then (s.modPkg (fun p => { p with voteBy := FMap.set pkg lead p.voteBy })).push
      (.packageLossDiagnosis pkg (s.voters pkg).length) else s)

/-! ## Lost packages (R396, R398) -/

/-- A listed spare package takes the place of a lost one, else a remote spare die that of each of its dies. A job that the loss
has hit parks where none is found (R398). -/
def State.replacePackage (s : State) (pkg code : Nat) (jobs : List Nat) : State :=
  let listed := (s.listedFor jobs).filter (fun p => p != pkg && p != s.fabric.coord && s.inShape p && !s.fencedPkg p &&
    !s.pkgTaken p && (List.range 14).all (fun n => !s.physUsed p n))
  match s.nearest pkg listed with
  | some p => (s.addRedirect { valid := true, spkg := pkg, sdie := 15, tpkg := p }).spareFound (16 + pkg)
  | none =>
    let r := (List.range 12).foldl (fun (r : State × Bool) d =>
      let s := r.1
      if s.fabric.redirects.any (fun e => e.2.valid && e.2.spkg == pkg && e.2.sdie == d) then r
      else match s.nearest pkg (s.remoteSpares pkg d jobs) with
        | some p => (s.addRedirect
            { valid := true, spkg := pkg, sdie := d, tpkg := p, tphys := (s.sparePhys d p).getD 0 }, r.2)
        | none => (s, true)) (s, false)
    if r.2 then jobs.foldl (fun s j => s.parkFor j code pkg (16 + pkg)) r.1 else r.1.spareFound (16 + pkg)

/-- The sequence of lost packages, as one event: the tasks of gangs with members there are rolled back, and spares take their
places. -/
def State.losePackages (s : State) (pkgs : List Nat) (code : Nat) : State :=
  let first := pkgs.headD 0
  let s := s.modPkg (fun p => { p with pkgHandled := p.pkgHandled ++ pkgs })
  let leads := (FMap.find s.pkg.voteBy first).all (fun x => x == s.fabric.coord)
  let s := if leads then s.note (.reported code first) else s
  let hit := s.tasks.filter (fun t => pkgs.any (fun p => (s.tasksAt p).any (fun u => u.id == t.id)))
  let jobs := (hit.map (·.job)).eraseDups
  let cands := (hit.flatMap (fun t => (pkgs.filter (fun p => (s.tasksAt p).any (fun u => u.id == t.id))).map (fun p =>
    (t.job, s.candidate t (.pkg p))))).eraseDups
  let set := cands.filter (fun c => !(cands.any (fun d => d.1 == c.1 && d.2 != c.2 && s.within d.1 d.2 8 c.2)))
  let s := set.foldl (fun s c => s.rollbackDomain c.1 c.2 code first) s
  pkgs.foldl (fun s p => s.replacePackage p code jobs) s

/-- A package's loss has the votes it needs. What follows waits 1 ms for the other packages of its tray: four that pass within
that time are one FC-TRAY, else the loss is an FC-PKG (R396). -/
def execPackageLossDiagnosis (pkg confirms : Nat) (s : State) : Out :=
  let losses := s.pkg.pkgLosses
  match losses.find? (fun l => l.1 == pkg) with
  | some l => .next (if s.pkg.pkgHandled.contains pkg || s.now < l.2 + 1000000 then s else s.losePackages [pkg] 9)
  | none =>
    if pkg = s.fabric.coord || confirms < min 3 (s.neighboursOf pkg) then .next s
    else
      let s := (s.modPkg (fun p => { p with pkgLosses := losses ++ [(pkg, s.now)] })).clearRedirects (fun r => r.tpkg == pkg)
      let tray := (s.pkg.pkgLosses.filter (fun l => l.1 % 2048 == pkg % 2048 && decide (s.now ≤ l.2 + 1000000) &&
        !s.pkg.pkgHandled.contains l.1)).map (·.1)
      .next (if 4 ≤ tray.length then s.losePackages tray 10
        else s.after 1000000 (.packageLossDiagnosis pkg confirms))

/-! ## Soft errors and the watchdog (R393, R394) -/

/-- An uncorrectable error in a core's own memory damages the core. -/
def State.coreHit (s : State) (c : Nat) : State := (s.note (.reported 1 c)).elementFault (.core c) 1 (s.tasksOn c)

/-- The die and the element in whose error counter a soft error counts: core c of the die as 1 + c, else 0. -/
def State.errorElement (s : State) (p : ErrorPlace) : Nat × Nat :=
  let core := fun (c : Nat) => (dieOfCore c, 1 + c)
  match p with
  | .word a => if (s.home a).win = .lm then core (s.home a).coreNum else (spaDie a, 0)
  | .slot k => core (coreOfSlot k)
  | .l1 c _ => core c
  | .icache c _ _ => core c
  | .tbl c _ => core c
  | .area t j => (((s.taskAt t).saves.find? (fun a => a.j == j)).map (fun a => (dieOfCore a.core, 0))).getD (0, 0)
  | .matrix c => core c
  | .writeBuffer c _ => core c

/-- An uncorrectable error in a task's own state is contained at the task (R389). -/
def State.taskHit (s : State) (task : Option Nat) : State :=
  match task with
  | some t => (s.note (.reported 1 t)).containedFault t 1
  | none => s

/-- A soft error: a correctable one is counted; of the others a word is found when it is read, a slot's state, a save area, a
matrix context with its tiles and units, and lines of the write buffer take their task back, a clean line is dropped and
counted, and a dirty line or a table entry damages the core. -/
def execSoftError (place : ErrorPlace) (correctable : Bool) (s : State) : Out :=
  let e := s.errorElement place
  let counted := s.modDie e.1 (fun d => { d with corrected := FMap.set e.2 (FMap.get 0 d.corrected e.2 + 1) d.corrected })
  if correctable then .next counted
  else match place with
    | .word a => .next (({ s with bad := insertWord (a / 8) s.bad } : State).taskHit (s.tileOwner (s.home a)))
    | .slot k => .next (s.taskHit ((s.boundTask k).map (·.id)))
    | .l1 c line =>
      match (s.coreAt c).findL line with
      | some l =>
        if l.isDirty then .next (s.coreHit c)
        else .next (counted.modCore c (fun x => { x with l1 := x.l1.filter (fun l => !sameLine l.line line) }))
      | none => .next s
    | .icache c asid line =>
      .next (counted.modCore c (fun x => { x with icache := x.icache.filter (fun l => !(l.asid == asid && l.line == line)) }))
    | .tbl c _ => .next (s.coreHit c)
    | .area t j => .next (s.taskHit (if (s.taskAt t).saves.any (fun a => a.j == j) then some t else none))
    | .matrix c => .next (s.taskHit ((s.coreAt c).mat.owner.map (·.task)))
    | .writeBuffer c t => .next (s.taskHit (if (s.coreAt c).spec.any (fun l => l.task == t) then some t else none))

/-- The watchdog of a slot fires: FC-HANG for its task (R393, R389). -/
def execWatchdogFire (slot : Nat) (s : State) : Out :=
  match s.boundTask slot with
  | some t => .next ((s.note (.reported 3 t.id)).containedFault t.id 3)
  | none => .next s

/-! ## Scheduler commands (R403) -/

def State.schedBlock (s : State) (x : Nat) : SchedBlock := FMap.get {} s.pkg.schedBlocks x
def State.modSched (s : State) (x : Nat) (f : SchedBlock → SchedBlock) : State :=
  s.modPkg (fun p => { p with schedBlocks := FMap.set x (f (FMap.get {} p.schedBlocks x)) p.schedBlocks })

/-- A command ends: STATUS is written, and BUSY falls. -/
def State.schedDone (s : State) (x : Nat) (status : Word) : State :=
  s.modSched x (fun b => { b with status := status, busy := false })
def schedRefused (code : Nat) : Word := BitVec.ofNat 64 (2 ^ 63 + code)

/-- A job none of whose tasks is parked any more is released. -/
def State.settleJob (s : State) (job : Nat) : State :=
  if (s.findJob job).any (fun j => j.parkedFor.isSome && j.wants.isEmpty) && !(s.tasks.any (fun t => t.job == job && t.parked))
  then s.releaseJob job else s

/-- A command on a parked task. -/
def State.onParked (s : State) (x : Nat) (act : State → Task → State) : State :=
  match s.findTask (s.schedBlock x).taskid with
  | none => s.schedDone x (schedRefused 1)
  | some t => if !t.parked then s.schedDone x (schedRefused 2) else ((act s t).settleJob t.job).schedDone x 0

def execRelease (xdie : Nat) (s : State) : Out :=
  .next (s.onParked xdie (fun s t =>
    if t.st = .rolledBack then s.restart t.id else (s.modTask t.id (fun t =>
      { t with parked := false, saves := t.saves.map (fun a => { a with pinned := false }) })).unquietPart t.part))

def execRequeue (xdie : Nat) (s : State) : Out := .next (s.onParked xdie (fun s t => (s.strip t.id).restart t.id))

def execKill (xdie : Nat) (s : State) : Out := .next (s.onParked xdie (fun s t => s.kill t.id 2))

/-- The SPA of a save area, which stays there until the task's next RELEASE, REQUEUE or KILL; of the context store it is open
(log entry 65). -/
def execSaveaddr (xdie : Nat) (s : State) : Out :=
  let b := s.schedBlock xdie
  match s.findTask b.taskid with
  | none => .next (s.schedDone xdie (schedRefused 1))
  | some t =>
    let has := t.st == .preempted || t.st == .swapped || (t.st == .rolledBack && t.parked)
    if !has || t.decl.slots ≤ b.slot || !t.saves.any (fun a => a.j == b.slot) then .next (s.schedDone xdie (schedRefused 2))
    else
      let at' := ((t.saves.find? (fun a => a.j == b.slot)).map (fun a => a.address t.id t.savedAt)).getD 0
      let s := s.modTask t.id (fun t => { t with saves := t.saves.map (fun a => { a with pinned := true }) })
      .next (s.schedDone xdie (BitVec.ofNat 64 (at' % 2 ^ 60)))

/-- The job that a command on a spare list names. -/
def State.onJob (s : State) (x : Nat) (act : State → Job → Nat → State) : State :=
  let b := s.schedBlock x
  match s.findJob b.job with
  | none => s.schedDone x (schedRefused 1)
  | some j => if j.part ≠ b.part then s.schedDone x (schedRefused 1) else act s j (b.arg.toNat % 8192)

/-- A spare is listed; losses that found none, of dies and of packages, look again (R402). -/
def execSpareadd (xdie : Nat) (s : State) : Out :=
  .next (s.onJob xdie (fun s j c =>
    if 16 ≤ j.spares.length || !s.inShape c then s.schedDone xdie (schedRefused 3)
    else
      let s := (s.modJob j.num (fun j => { j with spares := j.spares ++ [c] })).schedDone xdie 0
      let due := (List.range 12).filter (fun d => (s.mapAt d).fenced && !(s.timers.any (fun t => t.ev == .dieMapSwitch d)))
      let s := s.pushAll (due.map (fun d => .dieMapSwitch d))
      (j.wants.filter (fun w => 16 ≤ w)).foldl (fun s w => s.replacePackage (w - 16) 9 [j.num]) s))

def execSparedel (xdie : Nat) (s : State) : Out :=
  .next (s.onJob xdie (fun s j c =>
    if !j.spares.contains c then s.schedDone xdie (schedRefused 3)
    else (s.modJob j.num (fun j => { j with spares := j.spares.erase c })).schedDone xdie 0))

def execSchedCmdReserved (xdie : Nat) (s : State) : Out := .next (s.schedDone xdie (schedRefused 4))

end Machine
end Sys2Proof
end

