-- ==== Sys2Proof/Machine/Power.lean ====
section
/-!
DEFINITION. Power, bring-up and control space (17_retire R405, R411 to R414; 04_placement R82; 00_scope R7): the power
controller, power good, the life cycle, and writes of control registers.
-/
namespace Sys2Proof
namespace Machine

/-! ## The power controller (R411), every 100 µs -/

/-- The lowest clock of a die. -/
def clockFloor (die : Nat) : Nat := if die < 8 then 470 else 564

def Die.slower (d : Die) (die : Nat) : Die := { d with mhz := if d.mhz < clockFloor die + 47 then d.mhz else d.mhz - 47 }

/-- A die's sensor: at 100 °C it is lowered and held, below 95 °C it is released. -/
def State.thermal (s : State) (die temp : Nat) : State :=
  let d := s.dieAt die
  if 100 ≤ temp then
    let s := s.modDie die (fun d => { d.slower die with hot := true })
    if (d.slower die).mhz = d.mhz then s
    else s.modPkg (fun p => { p with power := { p.power with throt := min (p.power.throt + 1) 255 } })
  else if temp < 95 then s.modDie die (fun d => { d with hot := false })
  else s

/-- The first of some dies that is best by a comparison. -/
def bestDie (before : Nat → Nat → Bool) (ds : List Nat) : Option Nat :=
  ds.foldl (fun b d => match b with
    | some c => if before d c then some d else some c
    | none => some d) none

def execPowerControlTick (power : Nat) (temps draws : List Nat) (s : State) : Out :=
  let dies := s.liveDies
  let temp := fun (d : Nat) => temps.getD d 0
  let draw := fun (d : Nat) => draws.getD d 0
  let budget := min s.pkg.power.pbudget 4400
  let s := s.modPkg (fun p => { p with power := { p.power with pnow := power, tmax := temps.foldl max 0 } })
  let s := dies.foldl (fun (s : State) d => s.thermal d (temp d)) s
  let s :=
    if budget < power then
      match bestDie (fun a b => decide (draw b < draw a)) (dies.filter (fun d => clockFloor d + 47 ≤ (s.dieAt d).mhz)) with
      | some d => s.modDie d (fun x => x.slower d)
      | none => s
    else if power * 100 < budget * 95 then
      match bestDie (fun a b => decide ((s.dieAt a).mhz < (s.dieAt b).mhz))
          (dies.filter (fun d => (s.dieAt d).mhz < 940 && !(s.dieAt d).hot)) with
      | some d => s.modDie d (fun x => { x with mhz := x.mhz + 47 })
      | none => s
    else s
  .next (if temps.any (fun t => 115 ≤ t) then s.push .packagePowerRemoved else s)

/-- Package power is removed: nothing executes until power is good again. -/
def execPackagePowerRemoved (s : State) : Out := .next (s.modPkg (fun p => { p with poweredOff := true }))

/-! ## Bring-up (R412, R413) and the life cycle (R414) -/

/-- What goes on through a bring-up: the time, the model's counters, what the host has been told, and the place in the
fabric. The CSR cycles counts from here on (06_scalar Table 6-8). -/
def State.carryOver (s fresh : State) : State :=
  { fresh with
    cycle := s.cycle, bootCycle := s.cycle, now := s.now, freeCtr := s.freeCtr, nextId := s.nextId,
    fabric := { fresh.fabric with coord := s.fabric.coord, nc := s.fabric.nc, nd := s.fabric.nd },
    pkg := { fresh.pkg with notes := s.pkg.notes } }

/-- Power good: bring-up runs to READY, or stops with an error code. -/
def execPowerGood (calfail : BitVec 16) (signatureOk firmwareOk : Bool) (s : State) : Out :=
  let lcs := s.pkg.status.lcs
  let stopped := fun (code : Nat) => ({ pkg := { status := { step := 2, lcs := lcs, errcode := code } } } : State)
  .next (s.carryOver (if !signatureOk then stopped 1 else if !firmwareOk then stopped 2 else State.bringUp calfail.toNat lcs))

/-- The fabric after a wipe: its registers are as after bring-up; which links are UP, with which lanes, is no register's. -/
def Fabric.wiped (f : Fabric) : Fabric :=
  { coord := f.coord, nc := f.nc, nd := f.nd, xdieLost := f.xdieLost,
    links := f.links.map (fun (l : Nat × Link) => (l.1, { l.2 with weight := 0, wovr := false, events := 0 })) }

/-- A signed change of the life cycle: all that step 4 wipes is wiped, the keys are zeroised; the die map, and what is known to
be lost, stay. READY is clear while that lasts, at most the 100 ms of step 4; then LCS changes (log entry 125). -/
def execLcsChange (lcs : BitVec 2) (s : State) : Out :=
  let x := s.pkg.status
  if !x.ready && x.step = 4 then
    .next (if s.timers.any (fun t => t.ev == .lcsChange lcs) then s
      else s.modPkg (fun p => { p with status := { p.status with lcs := lcs.toNat, ready := true, step := 5 } }))
  else
    let s' := s.carryOver (State.bringUp x.calfail x.lcs)
    .next (({ s' with
      fabric := s.fabric.wiped,
      pkg := { s'.pkg with status := { x with ready := false, step := 4 }, map := s.pkg.map, localSpares := s.pkg.localSpares,
                           pkgLosses := s.pkg.pkgLosses, pkgHandled := s.pkg.pkgHandled },
      dies := s.dies.map (fun (d : Nat × Die) =>
        (d.1, { lost := d.2.lost, missed := d.2.missed, evidence := d.2.evidence })) } : State).after 100000000 (.lcsChange lcs))

/-! ## Control space (04_placement Table 4-5) -/

/-- Bits `hi` to 0 of a number with `n` bits from `lo` on replaced. -/
def putField (x lo n v : Nat) : Nat := x - fieldAt x lo n * 2 ^ lo + v % 2 ^ n * 2 ^ lo

/-- A word of a policy block (03_accord Table 3-7). -/
def State.writePolicy (s : State) (part i v : Nat) : State :=
  match i with
  | 7 => s.modPol part (fun p => { p with image := v % 2 ^ 60 })
  | 6 => s.modPol part (fun p => { p with imglen := fieldAt v 56 8, prio := p.prio % 256 + fieldAt v 0 56 * 256 })
  | 5 => s.modPol part (fun p =>
      { p with prio := p.prio / 256 * 256 + fieldAt v 56 8, grace := fieldAt v 40 16, gslice := fieldAt v 24 16 })
  | 4 =>
    let s := s.modPol part (fun p => { p with keep := bitAt v 7, taskswap := bitAt v 6 })
    if bitAt v 0 then s.push (.stage part) else s
  | _ => s

/-- A word of a partition configuration block (02_launch Table 2-1). -/
def State.writeConfigWord (s : State) (part i v : Nat) : State :=
  match i with
  | 7 => s.writeCfg part .energy v
  | 6 => s.writeCfg part .stagebase (v % 2 ^ 60)
  | 5 => s.writeCfg part .stagesize (v % 2 ^ 32)
  | 4 => s.writeCfg part .lqbase (v % 2 ^ 60)
  | 3 => s.writeCfg part .flags (fieldAt v 32 3)
  | 2 => (((s.writeCfg part .diemask (fieldAt v 22 12)).writeCfg part .qcount (fieldAt v 34 5)).writeCfg part .share
      (fieldAt v 39 5)).writeCfg part .lqsize (fieldAt v 44 4)
  | 1 => s.addEnergy part v
  | _ => s.writeCfg part .enable (v % 2)

/-- The queue block of an X-die. -/
def State.writeQueueBlock (s : State) (xdie o v : Nat) : State :=
  if 0x1000 ≤ o ∧ o < 0x1200 then s.push (.doorbell xdie ((o - 0x1000) / 8) (BitVec.ofNat 64 v))
  else if 0x4000 ≤ o ∧ o < 0x5000 then s.writeConfigWord ((o - 0x4000) / 64) (o / 8 % 8) v
  else if 0x5000 ≤ o ∧ o < 0x6000 then s.writePolicy ((o - 0x5000) / 64) (o / 8 % 8) v
  else if 0x6000 ≤ o ∧ o < 0x6400 then
    if o / 8 % 2 = 0 then s.modPart ((o - 0x6000) / 16) (fun p => { p with pquota := v }) else s
  else if 0x7000 ≤ o ∧ o < 0x7400 then
    let part := (o - 0x7000) / 16
    if o / 8 % 2 = 0 then s.modPart part (fun p => { p with rlbase := fieldAt v 6 54 })
    else s.modPart part (fun p => { p with rlsize := fieldAt v 44 4, rlerr := p.rlerr && !bitAt v 43 })
  else s

/-- The range commit block of an X-die (04_placement Table 4-12); a write while BUSY is ignored (R94). -/
def State.writeRangeBlock (s : State) (xdie i v : Nat) : State :=
  if (s.rangeBlock xdie).busy then s
  else match i with
  | 0 =>
    let s := s.modRangeBlock xdie (fun b => { b with asid := fieldAt v 0 10, nm1 := fieldAt v 16 6 })
    if bitAt v 63 then (s.modRangeBlock xdie (fun b => { b with busy := true, reading := true })).push (.go xdie) else s
  | 1 => s.modRangeBlock xdie (fun b => { b with image := fieldAt v 0 60 })
  | _ => s

/-- The fabric block: link status words and the configuration word (14_fabric Tables 14-1, 14-2). The fence list and RCLK
are the service processors' own. -/
def State.writeFabricBlock (s : State) (xdie o v : Nat) : State :=
  if o < 0x80 then
    let port := o / 16
    let link := o / 8 % 2 + 2 * (xdie - 12)
    let s := s.push (.linkWeightWrite port link (bitAt v 50) (BitVec.ofNat 4 (fieldAt v 51 4)))
    if bitAt v 49 then s.push (.retrain port link) else s
  else if o = 0x100 then s.modFabric (fun f => { f with tobase := fieldAt v 16 16, detours := fieldAt v 2 2 })
  else s

/-- The scheduler command that CMD names (16_recovery Table 16-11). -/
def schedEvent (xdie cmd : Nat) : Event :=
  match cmd with
  | 1 => .release xdie
  | 2 => .requeue xdie
  | 3 => .kill xdie
  | 4 => .saveaddr xdie
  | 5 => .spareadd xdie
  | 6 => .sparedel xdie
  | _ => .schedCmdReserved xdie

/-- The scheduler command block; a write while BUSY is ignored (16_recovery R403). -/
def State.writeSchedBlock (s : State) (xdie i v : Nat) : State :=
  if (s.schedBlock xdie).busy then s
  else match i with
    | 0 =>
      let s := s.modSched xdie (fun b => { b with cmd := fieldAt v 0 4 })
      if bitAt v 8 then (s.modSched xdie (fun b => { b with busy := true })).push (schedEvent xdie (fieldAt v 0 4)) else s
    | 1 => s.modSched xdie (fun b =>
        { b with taskid := fieldAt v 32 32, job := fieldAt v 16 16, part := fieldAt v 10 6, slot := fieldAt v 6 4 })
    | 3 => s.modSched xdie (fun b => { b with arg := BitVec.ofNat 64 v })
    | _ => s

/-- More than two members of a group lie in one die, one package or one tray (12_copy R322). -/
def State.crowded (s : State) (g : EcgEntry) : Bool :=
  let places := (g.mbase.take (g.k + g.p)).map (fun b =>
    let a := b * 256
    (if spaFabric a then spaPkg a else s.fabric.coord, spaDie a))
  places.any (fun x => 2 < places.countP (fun y => y == x) || 2 < places.countP (fun y => y.1 == x.1) ||
    2 < places.countP (fun y => y.1 % 2048 == x.1 % 2048))

/-- A word of a group entry (12_copy Table 12-18); a group that R322 forbids is not accepted. Entry 0 takes no write and reads
zero: 12_copy R322 gives the table 256 entries and describes 1 to 255 (log entry 123). -/
def State.writeGroup (s : State) (die g i v : Nat) : State :=
  let e : EcgEntry := FMap.get {} (s.dieAt die).ecg g
  let put := fun (e : EcgEntry) => s.modDie die (fun d => { d with ecg := FMap.set g e d.ecg })
  if g = 0 then s
  else if i = 0 then
    let e := { e with size := fieldAt v 8 32, valid := bitAt v 7, p := fieldAt v 4 2, k := fieldAt v 0 4 }
    if e.valid && s.crowded e then s else put e
  else if i ≤ 10 then
    let bases := (e.mbase ++ List.replicate (10 - e.mbase.length) 0).set (i - 1) (fieldAt v 0 52)
    let e := { e with mbase := bases }
    if e.valid && s.crowded e then s else put e
  else s

/-- A range entry as a number (04_placement Table 4-6). -/
def Range.toNat (e : Range) : Nat :=
  e.base + e.limit * 2 ^ 64 + e.phys * 2 ^ 104 + boolNat e.peeren * 2 ^ 160 + boolNat e.valid * 2 ^ 161 + boolNat e.r * 2 ^ 162 +
    boolNat e.w * 2 ^ 163 + boolNat e.x * 2 ^ 164 + boolNat e.dsrc * 2 ^ 165 + boolNat e.dacc * 2 ^ 166 + boolNat e.enc * 2 ^ 167 +
    e.key * 2 ^ 168 + e.peer * 2 ^ 178 + e.efmt * 2 ^ 188 + boolNat e.planar * 2 ^ 192 + e.blk * 2 ^ 193 +
    boolNat e.tblfmt * 2 ^ 195 + boolNat e.keep * 2 ^ 196 + e.planes * 2 ^ 197 + e.ecg * 2 ^ 200 + e.sync * 2 ^ 208

/-- A redirect entry (16_recovery Table 16-7). -/
def redirectOf (v : Nat) : Redirect :=
  { valid := bitAt v 63, spkg := fieldAt v 47 13, sdie := fieldAt v 43 4, tpkg := fieldAt v 30 13, tphys := fieldAt v 0 4 }

/-- Control registers of a C-die or H-die. The die map is written by the rewrite of R75 alone. The routers of the package
hold one redirect table; the service processors of other packages write its entries when a remote spare takes over a die
there, and clear them when that spare is replaced (R75, 16_recovery R397; log entry 113). -/
def State.writeDieBlock (s : State) (die o v : Nat) : State :=
  if 0x100 ≤ o ∧ o < 0x200 then
    s.modFabric (fun f => { f with redirects := FMap.set ((o - 0x100) / 8) (redirectOf v) f.redirects })
  else if o = 0x1000 then s.modDie die (fun d => { d with balint := BitVec.ofNat 64 (v % 2 ^ 17) })
  else if 0x2000 ≤ o ∧ o < 0xA000 then s.writeGroup die ((o - 0x2000) / 128) (o / 8 % 16) v
  else if 0x100000 ≤ o ∧ o < 0x102000 then
    let a := (o - 0x100000) / 8
    s.modDie die (fun d =>
      let old := FMap.get {} d.asids a
      { d with asids := FMap.set a { old with part := fieldAt v 42 6, owned := bitAt v 41, taskrc := bitAt v 40 } d.asids })
  else if 0x200000 ≤ o ∧ o < 0x400000 then
    let n := (o - 0x200000) / 32
    s.modDie die (fun d =>
      { d with ranges := FMap.set n (rangeOf (putField (FMap.get {} d.ranges n).toNat (64 * (o / 8 % 4)) 64 v)) d.ranges })
  else s

/-- A write of an aligned 64-bit word of control space (R82). Fields that are ro keep their values, and words that no
block holds take none (00_scope R7). -/
def execControlRegisterWrite (die offset : Nat) (value : BitVec 64) (s : State) : Out :=
  let v := value.toNat
  let o := offset % 2 ^ 20
  .next (if !s.pkg.status.ready || offset % 8 ≠ 0 then s
    else if die < 12 then if s.dieCode die = 0 ∧ !(s.dieAt die).lost then s.writeDieBlock die offset v else s
    else if !s.xdieUp die then s
    else match offset / 2 ^ 20 with
      | 1 => s.writeQueueBlock die o v
      | 2 => s.writeRangeBlock die (o / 8) v
      | 3 => s.writeFabricBlock die o v
      | 4 => if o = 0 then s.modPkg (fun p => { p with power := { p.power with pbudget := fieldAt v 48 16 } }) else s
      | 5 => s.writeSchedBlock die (o / 8) v
      | _ => s)

end Machine
end Sys2Proof
end

