-- ==== Sys2Proof/Machine/Agenda.lean ====
section
/-!
DEFINITION. The step of the agenda: each event is carried out by the meaning that `exec` gives the constructor of
the same name.
-/
namespace Sys2Proof
namespace Machine

/-- Carries out an event. -/
def runEvent (e : Event) (s : State) : Out :=
  match e with
  | .illegalInstruction word => execIllegalInstruction word s
  | .rotationBoundary die => execRotationBoundary die s
  | .balancingInterval die => execBalancingInterval die s
  | .dispatchDecision part die => execDispatchDecision part die s
  | .preemptionDecision part die => execPreemptionDecision part die s
  | .faultDecision part die => execFaultDecision part die s
  | .stage part => execStage part s
  | .policySwitch part die => execPolicySwitch part die s
  | .gangSliceRequest task => execGangSliceRequest task s
  | .gangSliceStart task => execGangSliceStart task s
  | .gangLateMemberStart task => execGangLateMemberStart task s
  | .gangSliceCancel task => execGangSliceCancel task s
  | .gangSliceEnd task => execGangSliceEnd task s
  | .gangMembersSaved task pkg => execGangMembersSaved task pkg s
  | .doorbell xdie part value => execDoorbell xdie part value s
  | .launchAdmission part => execLaunchAdmission part s
  | .heldRecordRecheck part => execHeldRecordRecheck part s
  | .partitionConfigWrite part field value => execPartitionConfigWrite part field value s
  | .enadd part value => execEnadd part value s
  | .stagingFetchComplete task input => execStagingFetchComplete task input s
  | .stagingFetchRetry task input => execStagingFetchRetry task input s
  | .taskItemDelivery box => execTaskItemDelivery box s
  | .go xdie => execGo xdie s
  | .rangeCommitDrainReport die => execRangeCommitDrainReport die s
  | .rangeCommitSwitch => execRangeCommitSwitch s
  | .dieMapSwitch die => execDieMapSwitch die s
  | .regWindowWrite msg => execRegWindowWrite msg s
  | .tblWindowWrite msg => execTblWindowWrite msg s
  | .homeAccess msg => execHomeAccess msg s
  | .replyArrival msg => execReplyArrival msg s
  | .asyncTrapEntry slot => execAsyncTrapEntry slot s
  | .journalAck core entry => execJournalAck core entry s
  | .postedStoreRefusal core entry code => execPostedStoreRefusal core entry code s
  | .l1Fill core line => execL1Fill core line s
  | .writebackReply wb code => execWritebackReply wb code s
  | .writebackRetry core => execWritebackRetry core s
  | .mergeWindowExpiry cluster block => execMergeWindowExpiry cluster block s
  | .icacheFill core asid line => execIcacheFill core asid line s
  | .xfmCrc cluster => execXfmCrc cluster s
  | .xfmFrc cluster => execXfmFrc cluster s
  | .xfmFrd cluster => execXfmFrd cluster s
  | .xfmEbc cluster => execXfmEbc cluster s
  | .xfmEbd cluster => execXfmEbd cluster s
  | .xfmCtb cluster => execXfmCtb cluster s
  | .mldaExecute core => execMldaExecute core s
  | .mldbExecute core => execMldbExecute core s
  | .mm16Execute core => execMm16Execute core s
  | .mzeroExecute core => execMzeroExecute core s
  | .mstcExecute core => execMstcExecute core s
  | .mcbtExecute core => execMcbtExecute core s
  | .mjoinComplete job gid => execMjoinComplete job gid s
  | .cfollowMtileStart core => execCfollowMtileStart core s
  | .groupWatchdogFire job gid => execGroupWatchdogFire job gid s
  | .gvQueueGrant cluster => execGvQueueGrant cluster s
  | .engineBoxIssue core queue => execEngineBoxIssue core queue s
  | .boxWrite box => execBoxWrite box s
  | .boxAck box => execBoxAck box s
  | .directedReadOwner box => execDirectedReadOwner box s
  | .directedReadDelivery box => execDirectedReadDelivery box s
  | .darithPacketApply box => execDarithPacketApply box s
  | .orderedPacketArrival box => execOrderedPacketArrival box s
  | .darithOpenPacket box => execDarithOpenPacket box s
  | .orderedPacketResend box => execOrderedPacketResend box s
  | .orderedHeldAck box => execOrderedHeldAck box s
  | .parityUpdate update => execParityUpdate update s
  | .routerHop packet => execRouterHop packet s
  | .laneLoss port link lane => execLaneLoss port link lane s
  | .retrain port link => execRetrain port link s
  | .linkTrainingDone port link live => execLinkTrainingDone port link live s
  | .flitCrcResend port link => execFlitCrcResend port link s
  | .flitResendLimit port link => execFlitResendLimit port link s
  | .fabricTimeout packet => execFabricTimeout packet s
  | .rclk xdie code => execRclk xdie code s
  | .rclkApply xdie => execRclkApply xdie s
  | .rclkPauseEnd xdie => execRclkPauseEnd xdie s
  | .xdieLoss xdie => execXdieLoss xdie s
  | .fenceListWrite index value => execFenceListWrite index value s
  | .linkWeightWrite port link wovr weight => execLinkWeightWrite port link wovr weight s
  | .preemptionRequest task => execPreemptionRequest task s
  | .preemptionSave task => execPreemptionSave task s
  | .swapOut task => execSwapOut task s
  | .swapIn task => execSwapIn task s
  | .pairItemCompare task slot => execPairItemCompare task slot s
  | .pairItemTimeout task slot => execPairItemTimeout task slot s
  | .heartbeat die => execHeartbeat die s
  | .diagnosisOpen cls element => execDiagnosisOpen cls element s
  | .pairAgreement diag => execPairAgreement diag s
  | .neighbourProbe pkg element answered => execNeighbourProbe pkg element answered s
  | .confirmationReply diag confirm => execConfirmationReply diag confirm s
  | .confirmationTimeout diag => execConfirmationTimeout diag s
  | .diagnosisRetry diag => execDiagnosisRetry diag s
  | .packageLossDiagnosis pkg confirms => execPackageLossDiagnosis pkg confirms s
  | .domainRestoreComplete job domain => execDomainRestoreComplete job domain s
  | .stripeGroupRebuild => execStripeGroupRebuild s
  | .watchdogFire slot => execWatchdogFire slot s
  | .release xdie => execRelease xdie s
  | .requeue xdie => execRequeue xdie s
  | .kill xdie => execKill xdie s
  | .saveaddr xdie => execSaveaddr xdie s
  | .spareadd xdie => execSpareadd xdie s
  | .sparedel xdie => execSparedel xdie s
  | .schedCmdReserved xdie => execSchedCmdReserved xdie s
  | .taskRetirement task => execTaskRetirement task s
  | .powerControlTick power temps draws => execPowerControlTick power temps draws s
  | .powerGood calfail signatureOk firmwareOk => execPowerGood calfail signatureOk firmwareOk s
  | .lcsChange lcs => execLcsChange lcs s
  | .controlRegisterWrite die offset value => execControlRegisterWrite die offset value s
  | .pairAgreementTimeout diag => execPairAgreementTimeout diag s
  | .dieLoss die => execDieLoss die s
  | .softError place correctable => execSoftError place correctable s
  | .packagePowerRemoved => execPackagePowerRemoved s
  | .mtileSequencerStep core => execMtileSequencerStep core s
  | .gvRowComplete slot => execGvRowComplete slot s
  | .vchainGroupComplete slot => execVchainGroupComplete slot s

end Machine
end Sys2Proof
end

