-- ==== Sys2Proof/Machine/Dispatch.lean ====
section
/-!
DEFINITION. One arm for each constructor of `Instr`: the call of its meaning.
-/
namespace Sys2Proof
namespace Machine

def exec (i : Instr) (s : State) : Host.Outcome State Fault Refusal :=
  match i with
  | .add d a b t u => Sys2Proof.Machine.execAdd d a b t u s
  | .sub d a b t u => Sys2Proof.Machine.execSub d a b t u s
  | .mul d a b t u => Sys2Proof.Machine.execMul d a b t u s
  | .mulh d a b t u => Sys2Proof.Machine.execMulh d a b t u s
  | .mulhu d a b t u => Sys2Proof.Machine.execMulhu d a b t u s
  | .div d a b t u => Sys2Proof.Machine.execDiv d a b t u s
  | .divu d a b t u => Sys2Proof.Machine.execDivu d a b t u s
  | .rem d a b t u => Sys2Proof.Machine.execRem d a b t u s
  | .remu d a b t u => Sys2Proof.Machine.execRemu d a b t u s
  | .and d a b t u => Sys2Proof.Machine.execAnd d a b t u s
  | .or d a b t u => Sys2Proof.Machine.execOr d a b t u s
  | .xor d a b t u => Sys2Proof.Machine.execXor d a b t u s
  | .andn d a b t u => Sys2Proof.Machine.execAndn d a b t u s
  | .sll d a b t u => Sys2Proof.Machine.execSll d a b t u s
  | .srl d a b t u => Sys2Proof.Machine.execSrl d a b t u s
  | .sra d a b t u => Sys2Proof.Machine.execSra d a b t u s
  | .ror d a b t u => Sys2Proof.Machine.execRor d a b t u s
  | .min d a b t u => Sys2Proof.Machine.execMin d a b t u s
  | .max d a b t u => Sys2Proof.Machine.execMax d a b t u s
  | .minu d a b t u => Sys2Proof.Machine.execMinu d a b t u s
  | .maxu d a b t u => Sys2Proof.Machine.execMaxu d a b t u s
  | .slt d a b t u => Sys2Proof.Machine.execSlt d a b t u s
  | .sltu d a b t u => Sys2Proof.Machine.execSltu d a b t u s
  | .seq d a b t u => Sys2Proof.Machine.execSeq d a b t u s
  | .sel d a b t u => Sys2Proof.Machine.execSel d a b t u s
  | .clz d a t => Sys2Proof.Machine.execClz d a t s
  | .ctz d a t => Sys2Proof.Machine.execCtz d a t s
  | .popc d a t => Sys2Proof.Machine.execPopc d a t s
  | .brev d a t => Sys2Proof.Machine.execBrev d a t s
  | .bswap d a t => Sys2Proof.Machine.execBswap d a t s
  | .addi d a t im => Sys2Proof.Machine.execAddi d a t im s
  | .andi d a t im => Sys2Proof.Machine.execAndi d a t im s
  | .ori d a t im => Sys2Proof.Machine.execOri d a t im s
  | .xori d a t im => Sys2Proof.Machine.execXori d a t im s
  | .slti d a t im => Sys2Proof.Machine.execSlti d a t im s
  | .sltiu d a t im => Sys2Proof.Machine.execSltiu d a t im s
  | .slli d a t im => Sys2Proof.Machine.execSlli d a t im s
  | .srli d a t im => Sys2Proof.Machine.execSrli d a t im s
  | .srai d a t im => Sys2Proof.Machine.execSrai d a t im s
  | .lhi d im => Sys2Proof.Machine.execLhi d im s
  | .apc d im => Sys2Proof.Machine.execApc d im s
  | .bfx d a t w p => Sys2Proof.Machine.execBfx d a t w p s
  | .bfxs d a t w p => Sys2Proof.Machine.execBfxs d a t w p s
  | .bfi d a t w p => Sys2Proof.Machine.execBfi d a t w p s
  | .bbinit a b t u => Sys2Proof.Machine.execBbinit a b t u s
  | .bbget d n => Sys2Proof.Machine.execBbget d n s
  | .bbpeek d n => Sys2Proof.Machine.execBbpeek d n s
  | .bbskip n => Sys2Proof.Machine.execBbskip n s
  | .bbalign n => Sys2Proof.Machine.execBbalign n s
  | .bbemit a t n => Sys2Proof.Machine.execBbemit a t n s
  | .bbflush => Sys2Proof.Machine.execBbflush s
  | .bbtell d => Sys2Proof.Machine.execBbtell d s
  | .beq a b o => Sys2Proof.Machine.execBeq a b o s
  | .bne a b o => Sys2Proof.Machine.execBne a b o s
  | .blt a b o => Sys2Proof.Machine.execBlt a b o s
  | .bge a b o => Sys2Proof.Machine.execBge a b o s
  | .bltu a b o => Sys2Proof.Machine.execBltu a b o s
  | .bgeu a b o => Sys2Proof.Machine.execBgeu a b o s
  | .jal d o => Sys2Proof.Machine.execJal d o s
  | .jalr d a t im => Sys2Proof.Machine.execJalr d a t im s
  | .lb d a t im => Sys2Proof.Machine.execLb d a t im s
  | .lbs d a t im => Sys2Proof.Machine.execLbs d a t im s
  | .lh d a t im => Sys2Proof.Machine.execLh d a t im s
  | .lhs d a t im => Sys2Proof.Machine.execLhs d a t im s
  | .lw d a t im => Sys2Proof.Machine.execLw d a t im s
  | .lws d a t im => Sys2Proof.Machine.execLws d a t im s
  | .ld d a t im => Sys2Proof.Machine.execLd d a t im s
  | .sb d a t im => Sys2Proof.Machine.execSb d a t im s
  | .sh d a t im => Sys2Proof.Machine.execSh d a t im s
  | .sw d a t im => Sys2Proof.Machine.execSw d a t im s
  | .sd d a t im => Sys2Proof.Machine.execSd d a t im s
  | .ldfe d a t m o => Sys2Proof.Machine.execLdfe d a t m o s
  | .sdfe d a t m o => Sys2Proof.Machine.execSdfe d a t m o s
  | .feget d a t o => Sys2Proof.Machine.execFeget d a t o s
  | .feset d a t o => Sys2Proof.Machine.execFeset d a t o s
  | .amoadd d a b t u w => Sys2Proof.Machine.execAmoadd d a b t u w s
  | .amoswap d a b t u w => Sys2Proof.Machine.execAmoswap d a b t u w s
  | .amocas d a b t u w => Sys2Proof.Machine.execAmocas d a b t u w s
  | .amoand d a b t u w => Sys2Proof.Machine.execAmoand d a b t u w s
  | .amoor d a b t u w => Sys2Proof.Machine.execAmoor d a b t u w s
  | .amoxor d a b t u w => Sys2Proof.Machine.execAmoxor d a b t u w s
  | .amomin d a b t u w => Sys2Proof.Machine.execAmomin d a b t u w s
  | .amomax d a b t u w => Sys2Proof.Machine.execAmomax d a b t u w s
  | .amominu d a b t u w => Sys2Proof.Machine.execAmominu d a b t u w s
  | .amomaxu d a b t u w => Sys2Proof.Machine.execAmomaxu d a b t u w s
  | .amofadd d a b t u p => Sys2Proof.Machine.execAmofadd d a b t u p s
  | .rld d a t m w => Sys2Proof.Machine.execRld d a t m w s
  | .rst a b t u w => Sys2Proof.Machine.execRst a b t u w s
  | .rstfe a b t u m => Sys2Proof.Machine.execRstfe a b t u m s
  | .ramo d a b t u w f => Sys2Proof.Machine.execRamo d a b t u w f s
  | .acq d a sc => Sys2Proof.Machine.execAcq d a sc s
  | .rel d a sc => Sys2Proof.Machine.execRel d a sc s
  | .fence sc => Sys2Proof.Machine.execFence sc s
  | .qfence m => Sys2Proof.Machine.execQfence m s
  | .bind d a => Sys2Proof.Machine.execBind d a s
  | .ipf a l n => Sys2Proof.Machine.execIpf a l n s
  | .ipin d a l n => Sys2Proof.Machine.execIpin d a l n s
  | .iunpin a l n => Sys2Proof.Machine.execIunpin a l n s
  | .dpf a n => Sys2Proof.Machine.execDpf a n s
  | .cwb a n => Sys2Proof.Machine.execCwb a n s
  | .cinv a w n => Sys2Proof.Machine.execCinv a w n s
  | .fadd d a b t u p r => Sys2Proof.Machine.execFadd d a b t u p r s
  | .fsub d a b t u p r => Sys2Proof.Machine.execFsub d a b t u p r s
  | .fmul d a b t u p r => Sys2Proof.Machine.execFmul d a b t u p r s
  | .fdiv d a b t u p r => Sys2Proof.Machine.execFdiv d a b t u p r s
  | .fsqrt d a t p r => Sys2Proof.Machine.execFsqrt d a t p r s
  | .fmin d a b t u p => Sys2Proof.Machine.execFmin d a b t u p s
  | .fmax d a b t u p => Sys2Proof.Machine.execFmax d a b t u p s
  | .fminm d a b t u p => Sys2Proof.Machine.execFminm d a b t u p s
  | .fmaxm d a b t u p => Sys2Proof.Machine.execFmaxm d a b t u p s
  | .feq d a b t u p => Sys2Proof.Machine.execFeq d a b t u p s
  | .flt d a b t u p => Sys2Proof.Machine.execFlt d a b t u p s
  | .fle d a b t u p => Sys2Proof.Machine.execFle d a b t u p s
  | .fclass d a t p => Sys2Proof.Machine.execFclass d a t p s
  | .fsgnj d a b t u p => Sys2Proof.Machine.execFsgnj d a b t u p s
  | .fsgnjn d a b t u p => Sys2Proof.Machine.execFsgnjn d a b t u p s
  | .fsgnjx d a b t u p => Sys2Proof.Machine.execFsgnjx d a b t u p s
  | .fma d a b c p r => Sys2Proof.Machine.execFma d a b c p r s
  | .fms d a b c p r => Sys2Proof.Machine.execFms d a b c p r s
  | .fnms d a b c p r => Sys2Proof.Machine.execFnms d a b c p r s
  | .fnma d a b c p r => Sys2Proof.Machine.execFnma d a b c p r s
  | .fcvt d a w t x y r => Sys2Proof.Machine.execFcvt d a w t x y r s
  | .fexp2 d a t p => Sys2Proof.Machine.execFexp2 d a t p s
  | .flog2 d a t p => Sys2Proof.Machine.execFlog2 d a t p s
  | .fexp d a t p => Sys2Proof.Machine.execFexp d a t p s
  | .fln d a t p => Sys2Proof.Machine.execFln d a t p s
  | .frcp d a t p => Sys2Proof.Machine.execFrcp d a t p s
  | .frsq d a t p => Sys2Proof.Machine.execFrsq d a t p s
  | .fsin d a t p => Sys2Proof.Machine.execFsin d a t p s
  | .fcos d a t p => Sys2Proof.Machine.execFcos d a t p s
  | .ftanh d a t p => Sys2Proof.Machine.execFtanh d a t p s
  | .fsigm d a t p => Sys2Proof.Machine.execFsigm d a t p s
  | .ferf d a t p => Sys2Proof.Machine.execFerf d a t p s
  | .xclr a t => Sys2Proof.Machine.execXclr a t s
  | .xacc a b t u p => Sys2Proof.Machine.execXacc a b t u p s
  | .xrnd d a t p r => Sys2Proof.Machine.execXrnd d a t p r s
  | .vadd d a b y => Sys2Proof.Machine.execVadd d a b y s
  | .vsub d a b y => Sys2Proof.Machine.execVsub d a b y s
  | .vmul d a b y => Sys2Proof.Machine.execVmul d a b y s
  | .vfma d a b y => Sys2Proof.Machine.execVfma d a b y s
  | .vmin d a b y => Sys2Proof.Machine.execVmin d a b y s
  | .vmax d a b y => Sys2Proof.Machine.execVmax d a b y s
  | .vand d a b y => Sys2Proof.Machine.execVand d a b y s
  | .vor d a b y => Sys2Proof.Machine.execVor d a b y s
  | .vxor d a b y => Sys2Proof.Machine.execVxor d a b y s
  | .vshl d a b y => Sys2Proof.Machine.execVshl d a b y s
  | .vshr d a b y => Sys2Proof.Machine.execVshr d a b y s
  | .vcmp d a b y => Sys2Proof.Machine.execVcmp d a b y s
  | .vsel d a b y => Sys2Proof.Machine.execVsel d a b y s
  | .vperm d a b y => Sys2Proof.Machine.execVperm d a b y s
  | .vmov d a y => Sys2Proof.Machine.execVmov d a y s
  | .vbcst d a t y => Sys2Proof.Machine.execVbcst d a t y s
  | .vredadd d a y => Sys2Proof.Machine.execVredadd d a y s
  | .vredmax d a y => Sys2Proof.Machine.execVredmax d a y s
  | .vredmin d a y => Sys2Proof.Machine.execVredmin d a y s
  | .vcvt d a x y => Sys2Proof.Machine.execVcvt d a x y s
  | .vqnt d a b u => Sys2Proof.Machine.execVqnt d a b u s
  | .vmaxx d a => Sys2Proof.Machine.execVmaxx d a s
  | .vexp d a y => Sys2Proof.Machine.execVexp d a y s
  | .vln d a y => Sys2Proof.Machine.execVln d a y s
  | .vrcp d a y => Sys2Proof.Machine.execVrcp d a y s
  | .vrsq d a y => Sys2Proof.Machine.execVrsq d a y s
  | .vtanh d a y => Sys2Proof.Machine.execVtanh d a y s
  | .vclaim d a t => Sys2Proof.Machine.execVclaim d a t s
  | .vreneg d a t => Sys2Proof.Machine.execVreneg d a t s
  | .vrel => Sys2Proof.Machine.execVrel s
  | .vld d a t => Sys2Proof.Machine.execVld d a t s
  | .vlds d a b t u => Sys2Proof.Machine.execVlds d a b t u s
  | .vgth d a b t => Sys2Proof.Machine.execVgth d a b t s
  | .vst d a t => Sys2Proof.Machine.execVst d a t s
  | .vsts d a b t u => Sys2Proof.Machine.execVsts d a b t u s
  | .vsct d a b t => Sys2Proof.Machine.execVsct d a b t s
  | .vchain a t => Sys2Proof.Machine.execVchain a t s
  | .mcfg w a => Sys2Proof.Machine.execMcfg w a s
  | .mldb k w a b => Sys2Proof.Machine.execMldb k w a b s
  | .mlda k w a b => Sys2Proof.Machine.execMlda k w a b s
  | .mm16 k w a b => Sys2Proof.Machine.execMm16 k w a b s
  | .mtile k w a => Sys2Proof.Machine.execMtile k w a s
  | .mzero k w a b => Sys2Proof.Machine.execMzero k w a b s
  | .mstc k w a b => Sys2Proof.Machine.execMstc k w a b s
  | .mprog w a b => Sys2Proof.Machine.execMprog w a b s
  | .mjoin k w a => Sys2Proof.Machine.execMjoin k w a s
  | .mgv k w a b => Sys2Proof.Machine.execMgv k w a b s
  | .mgvb k w a b => Sys2Proof.Machine.execMgvb k w a b s
  | .mcbt k w a b => Sys2Proof.Machine.execMcbt k w a b s
  | .send k w a b => Sys2Proof.Machine.execSend k w a b s
  | .sendx k w a b => Sys2Proof.Machine.execSendx k w a b s
  | .dget k w a b => Sys2Proof.Machine.execDget k w a b s
  | .dgetl k w a b => Sys2Proof.Machine.execDgetl k w a b s
  | .darith k w a b => Sys2Proof.Machine.execDarith k w a b s
  | .cfollow k w a b => Sys2Proof.Machine.execCfollow k w a b s
  | .cquery k w a b => Sys2Proof.Machine.execCquery k w a b s
  | .ccancel k w a => Sys2Proof.Machine.execCcancel k w a s
  | .xreq k w a b => Sys2Proof.Machine.execXreq k w a b s
  | .xpoll k w a b => Sys2Proof.Machine.execXpoll k w a b s
  | .xres k w a b => Sys2Proof.Machine.execXres k w a b s
  | .engw e w a => Sys2Proof.Machine.execEngw e w a s
  | .engr e w b => Sys2Proof.Machine.execEngr e w b s
  | .wait w => Sys2Proof.Machine.execWait w s
  | .tokq k w a b => Sys2Proof.Machine.execTokq k w a b s
  | .svc n => Sys2Proof.Machine.execSvc n s
  | .brk n => Sys2Proof.Machine.execBrk n s
  | .eret => Sys2Proof.Machine.execEret s
  | .csrr d c => Sys2Proof.Machine.execCsrr d c s
  | .csrw d a c => Sys2Proof.Machine.execCsrw d a c s
  | .yield n => Sys2Proof.Machine.execYield n s
  | .empty d n => Sys2Proof.Machine.execEmpty d n s
  | .halt => Sys2Proof.Machine.execHalt s
  | .spawn d a => Sys2Proof.Machine.execSpawn d a s
  | .tdone n => Sys2Proof.Machine.execTdone n s
  | .cdopen d a => Sys2Proof.Machine.execCdopen d a s
  | .cdpres d a n => Sys2Proof.Machine.execCdpres d a n s
  | .cdclose d a => Sys2Proof.Machine.execCdclose d a s
  | .pair d => Sys2Proof.Machine.execPair d s
  | .unpair d => Sys2Proof.Machine.execUnpair d s
  | .rcommit d a n => Sys2Proof.Machine.execRcommit d a n s
  | .aswap d a k n => Sys2Proof.Machine.execAswap d a k n s
  | .illegalInstruction word => Sys2Proof.Machine.execIllegalInstruction word s
  | .rotationBoundary die => Sys2Proof.Machine.execRotationBoundary die s
  | .balancingInterval die => Sys2Proof.Machine.execBalancingInterval die s
  | .dispatchDecision part die => Sys2Proof.Machine.execDispatchDecision part die s
  | .preemptionDecision part die => Sys2Proof.Machine.execPreemptionDecision part die s
  | .faultDecision part die => Sys2Proof.Machine.execFaultDecision part die s
  | .stage part => Sys2Proof.Machine.execStage part s
  | .policySwitch part die => Sys2Proof.Machine.execPolicySwitch part die s
  | .gangSliceRequest task => Sys2Proof.Machine.execGangSliceRequest task s
  | .gangSliceStart task => Sys2Proof.Machine.execGangSliceStart task s
  | .gangLateMemberStart task => Sys2Proof.Machine.execGangLateMemberStart task s
  | .gangSliceCancel task => Sys2Proof.Machine.execGangSliceCancel task s
  | .gangSliceEnd task => Sys2Proof.Machine.execGangSliceEnd task s
  | .gangMembersSaved task pkg => Sys2Proof.Machine.execGangMembersSaved task pkg s
  | .doorbell xdie part value => Sys2Proof.Machine.execDoorbell xdie part value s
  | .launchAdmission part => Sys2Proof.Machine.execLaunchAdmission part s
  | .heldRecordRecheck part => Sys2Proof.Machine.execHeldRecordRecheck part s
  | .partitionConfigWrite part field value => Sys2Proof.Machine.execPartitionConfigWrite part field value s
  | .enadd part value => Sys2Proof.Machine.execEnadd part value s
  | .stagingFetchComplete task input => Sys2Proof.Machine.execStagingFetchComplete task input s
  | .stagingFetchRetry task input => Sys2Proof.Machine.execStagingFetchRetry task input s
  | .taskItemDelivery box => Sys2Proof.Machine.execTaskItemDelivery box s
  | .go xdie => Sys2Proof.Machine.execGo xdie s
  | .rangeCommitDrainReport die => Sys2Proof.Machine.execRangeCommitDrainReport die s
  | .rangeCommitSwitch => Sys2Proof.Machine.execRangeCommitSwitch s
  | .dieMapSwitch die => Sys2Proof.Machine.execDieMapSwitch die s
  | .regWindowWrite msg => Sys2Proof.Machine.execRegWindowWrite msg s
  | .tblWindowWrite msg => Sys2Proof.Machine.execTblWindowWrite msg s
  | .homeAccess msg => Sys2Proof.Machine.execHomeAccess msg s
  | .replyArrival msg => Sys2Proof.Machine.execReplyArrival msg s
  | .asyncTrapEntry slot => Sys2Proof.Machine.execAsyncTrapEntry slot s
  | .journalAck core entry => Sys2Proof.Machine.execJournalAck core entry s
  | .postedStoreRefusal core entry code => Sys2Proof.Machine.execPostedStoreRefusal core entry code s
  | .l1Fill core line => Sys2Proof.Machine.execL1Fill core line s
  | .writebackReply wb code => Sys2Proof.Machine.execWritebackReply wb code s
  | .writebackRetry core => Sys2Proof.Machine.execWritebackRetry core s
  | .mergeWindowExpiry cluster block => Sys2Proof.Machine.execMergeWindowExpiry cluster block s
  | .icacheFill core asid line => Sys2Proof.Machine.execIcacheFill core asid line s
  | .xfmCrc cluster => Sys2Proof.Machine.execXfmCrc cluster s
  | .xfmFrc cluster => Sys2Proof.Machine.execXfmFrc cluster s
  | .xfmFrd cluster => Sys2Proof.Machine.execXfmFrd cluster s
  | .xfmEbc cluster => Sys2Proof.Machine.execXfmEbc cluster s
  | .xfmEbd cluster => Sys2Proof.Machine.execXfmEbd cluster s
  | .xfmCtb cluster => Sys2Proof.Machine.execXfmCtb cluster s
  | .mldaExecute core => Sys2Proof.Machine.execMldaExecute core s
  | .mldbExecute core => Sys2Proof.Machine.execMldbExecute core s
  | .mm16Execute core => Sys2Proof.Machine.execMm16Execute core s
  | .mzeroExecute core => Sys2Proof.Machine.execMzeroExecute core s
  | .mstcExecute core => Sys2Proof.Machine.execMstcExecute core s
  | .mcbtExecute core => Sys2Proof.Machine.execMcbtExecute core s
  | .mjoinComplete job gid => Sys2Proof.Machine.execMjoinComplete job gid s
  | .cfollowMtileStart core => Sys2Proof.Machine.execCfollowMtileStart core s
  | .groupWatchdogFire job gid => Sys2Proof.Machine.execGroupWatchdogFire job gid s
  | .gvQueueGrant cluster => Sys2Proof.Machine.execGvQueueGrant cluster s
  | .engineBoxIssue core queue => Sys2Proof.Machine.execEngineBoxIssue core queue s
  | .boxWrite box => Sys2Proof.Machine.execBoxWrite box s
  | .boxAck box => Sys2Proof.Machine.execBoxAck box s
  | .directedReadOwner box => Sys2Proof.Machine.execDirectedReadOwner box s
  | .directedReadDelivery box => Sys2Proof.Machine.execDirectedReadDelivery box s
  | .darithPacketApply box => Sys2Proof.Machine.execDarithPacketApply box s
  | .orderedPacketArrival box => Sys2Proof.Machine.execOrderedPacketArrival box s
  | .darithOpenPacket box => Sys2Proof.Machine.execDarithOpenPacket box s
  | .orderedPacketResend box => Sys2Proof.Machine.execOrderedPacketResend box s
  | .orderedHeldAck box => Sys2Proof.Machine.execOrderedHeldAck box s
  | .parityUpdate update => Sys2Proof.Machine.execParityUpdate update s
  | .routerHop packet => Sys2Proof.Machine.execRouterHop packet s
  | .laneLoss port link lane => Sys2Proof.Machine.execLaneLoss port link lane s
  | .retrain port link => Sys2Proof.Machine.execRetrain port link s
  | .linkTrainingDone port link live => Sys2Proof.Machine.execLinkTrainingDone port link live s
  | .flitCrcResend port link => Sys2Proof.Machine.execFlitCrcResend port link s
  | .flitResendLimit port link => Sys2Proof.Machine.execFlitResendLimit port link s
  | .fabricTimeout packet => Sys2Proof.Machine.execFabricTimeout packet s
  | .rclk xdie code => Sys2Proof.Machine.execRclk xdie code s
  | .rclkApply xdie => Sys2Proof.Machine.execRclkApply xdie s
  | .rclkPauseEnd xdie => Sys2Proof.Machine.execRclkPauseEnd xdie s
  | .xdieLoss xdie => Sys2Proof.Machine.execXdieLoss xdie s
  | .fenceListWrite index value => Sys2Proof.Machine.execFenceListWrite index value s
  | .linkWeightWrite port link wovr weight => Sys2Proof.Machine.execLinkWeightWrite port link wovr weight s
  | .preemptionRequest task => Sys2Proof.Machine.execPreemptionRequest task s
  | .preemptionSave task => Sys2Proof.Machine.execPreemptionSave task s
  | .swapOut task => Sys2Proof.Machine.execSwapOut task s
  | .swapIn task => Sys2Proof.Machine.execSwapIn task s
  | .pairItemCompare task slot => Sys2Proof.Machine.execPairItemCompare task slot s
  | .pairItemTimeout task slot => Sys2Proof.Machine.execPairItemTimeout task slot s
  | .heartbeat die => Sys2Proof.Machine.execHeartbeat die s
  | .diagnosisOpen cls element => Sys2Proof.Machine.execDiagnosisOpen cls element s
  | .pairAgreement diag => Sys2Proof.Machine.execPairAgreement diag s
  | .neighbourProbe pkg element answered => Sys2Proof.Machine.execNeighbourProbe pkg element answered s
  | .confirmationReply diag confirm => Sys2Proof.Machine.execConfirmationReply diag confirm s
  | .confirmationTimeout diag => Sys2Proof.Machine.execConfirmationTimeout diag s
  | .diagnosisRetry diag => Sys2Proof.Machine.execDiagnosisRetry diag s
  | .packageLossDiagnosis pkg confirms => Sys2Proof.Machine.execPackageLossDiagnosis pkg confirms s
  | .domainRestoreComplete job domain => Sys2Proof.Machine.execDomainRestoreComplete job domain s
  | .stripeGroupRebuild => Sys2Proof.Machine.execStripeGroupRebuild s
  | .watchdogFire slot => Sys2Proof.Machine.execWatchdogFire slot s
  | .release xdie => Sys2Proof.Machine.execRelease xdie s
  | .requeue xdie => Sys2Proof.Machine.execRequeue xdie s
  | .kill xdie => Sys2Proof.Machine.execKill xdie s
  | .saveaddr xdie => Sys2Proof.Machine.execSaveaddr xdie s
  | .spareadd xdie => Sys2Proof.Machine.execSpareadd xdie s
  | .sparedel xdie => Sys2Proof.Machine.execSparedel xdie s
  | .schedCmdReserved xdie => Sys2Proof.Machine.execSchedCmdReserved xdie s
  | .taskRetirement task => Sys2Proof.Machine.execTaskRetirement task s
  | .powerControlTick power temps draws => Sys2Proof.Machine.execPowerControlTick power temps draws s
  | .powerGood calfail signatureOk firmwareOk => Sys2Proof.Machine.execPowerGood calfail signatureOk firmwareOk s
  | .lcsChange lcs => Sys2Proof.Machine.execLcsChange lcs s
  | .controlRegisterWrite die offset value => Sys2Proof.Machine.execControlRegisterWrite die offset value s
  | .pairAgreementTimeout diag => Sys2Proof.Machine.execPairAgreementTimeout diag s
  | .dieLoss die => Sys2Proof.Machine.execDieLoss die s
  | .softError place correctable => Sys2Proof.Machine.execSoftError place correctable s
  | .packagePowerRemoved => Sys2Proof.Machine.execPackagePowerRemoved s
  | .mtileSequencerStep core => Sys2Proof.Machine.execMtileSequencerStep core s
  | .gvRowComplete slot => Sys2Proof.Machine.execGvRowComplete slot s
  | .vchainGroupComplete slot => Sys2Proof.Machine.execVchainGroupComplete slot s

end Machine
end Sys2Proof
end

