-- ==== Sys2Proof/Machine/Step.lean ====
section
/-!
DEFINITION. One step of the package: the first event of the agenda, or, with an empty agenda, the turn of the
current slot; and the placing of an instruction where the next step fetches it.
-/
namespace Sys2Proof
namespace Machine

/-- What a turn ends in: the next turn comes. -/
def endTurn (o : Out) : Out :=
  match o with
  | .next s => .next s.advance
  | .fault f => .fault f
  | .refused r => .refused r

/-- The turn of the current slot carried out: the fetched word decoded and executed. -/
def State.runTurn (s : State) : Out :=
  match s.pairResult.turn with
  | .used s' => endTurn (.next s')
  | .issue i s' =>
    match s'.issueGate i with
    | some s'' => endTurn (.next s'')
    | none => endTurn (exec i s')
  | .illegal w s' => endTurn (exec (.illegalInstruction (BitVec.ofNat 32 w)) s')

/-- One step. Without package power only a power-good event does anything (17_retire R411, R412). -/
def step (s : State) : Host.Outcome State Fault Refusal :=
  match s.agenda with
  | e :: rest =>
    if s.pkg.poweredOff && !isPowerGood e then .fault .packageOff
    else runEvent e { s with agenda := rest, freeCtr := s.freeCtr + 1 }
  | [] => if s.pkg.poweredOff then .fault .packageOff else s.runTurn

/-- `s` with an instruction placed where the next step fetches: hardware slot 0 of core 0 of die 0 runs a task of
address space 0 at virtual address 0x10_0000, which a range with all rights maps to byte 0 of die 0's DRAM; the
word stands there and in the core's instruction cache, and nothing is due before the slot's turn. It stands for
the launch that brings a program to the package from outside. -/
def State.withFetchWord (s : State) (nbits w : Nat) : State :=
  (s.placeSlot).placeWord (if nbits = 32 then w % 2 ^ 32 else w)

end Machine
end Sys2Proof
end

