-- ==== Sys2Proof/Laws/PerInstr.lean ====
section
/-!
SUPPORT. A law made per instruction: the word of an instruction fits 32 bits (05_encoding R100, R101).
-/
namespace Sys2Proof
namespace Laws

set_option Elab.async false

theorem boolNat_le (b : Bool) : boolNat b ≤ 1 := by cases b <;> decide

/-- The word that an instruction is encoded as has at most 32 bits. -/
def WordFits.Statement (i : Instr) : Prop := ∀ w, encode i = some w → w < 2 ^ 32

theorem WordFits.add (d a b : Fin 32) (t u : Bool) : WordFits.Statement (.add d a b t u) := by intro x h; simp only [encode, Option.some.injEq] at h; have := boolNat_le t; have := boolNat_le u; omega
theorem WordFits.sub (d a b : Fin 32) (t u : Bool) : WordFits.Statement (.sub d a b t u) := by intro x h; simp only [encode, Option.some.injEq] at h; have := boolNat_le t; have := boolNat_le u; omega
theorem WordFits.mul (d a b : Fin 32) (t u : Bool) : WordFits.Statement (.mul d a b t u) := by intro x h; simp only [encode, Option.some.injEq] at h; have := boolNat_le t; have := boolNat_le u; omega
theorem WordFits.mulh (d a b : Fin 32) (t u : Bool) : WordFits.Statement (.mulh d a b t u) := by intro x h; simp only [encode, Option.some.injEq] at h; have := boolNat_le t; have := boolNat_le u; omega
theorem WordFits.mulhu (d a b : Fin 32) (t u : Bool) : WordFits.Statement (.mulhu d a b t u) := by intro x h; simp only [encode, Option.some.injEq] at h; have := boolNat_le t; have := boolNat_le u; omega
theorem WordFits.div (d a b : Fin 32) (t u : Bool) : WordFits.Statement (.div d a b t u) := by intro x h; simp only [encode, Option.some.injEq] at h; have := boolNat_le t; have := boolNat_le u; omega
theorem WordFits.divu (d a b : Fin 32) (t u : Bool) : WordFits.Statement (.divu d a b t u) := by intro x h; simp only [encode, Option.some.injEq] at h; have := boolNat_le t; have := boolNat_le u; omega
theorem WordFits.rem (d a b : Fin 32) (t u : Bool) : WordFits.Statement (.rem d a b t u) := by intro x h; simp only [encode, Option.some.injEq] at h; have := boolNat_le t; have := boolNat_le u; omega
theorem WordFits.remu (d a b : Fin 32) (t u : Bool) : WordFits.Statement (.remu d a b t u) := by intro x h; simp only [encode, Option.some.injEq] at h; have := boolNat_le t; have := boolNat_le u; omega
theorem WordFits.and (d a b : Fin 32) (t u : Bool) : WordFits.Statement (.and d a b t u) := by intro x h; simp only [encode, Option.some.injEq] at h; have := boolNat_le t; have := boolNat_le u; omega
theorem WordFits.or (d a b : Fin 32) (t u : Bool) : WordFits.Statement (.or d a b t u) := by intro x h; simp only [encode, Option.some.injEq] at h; have := boolNat_le t; have := boolNat_le u; omega
theorem WordFits.xor (d a b : Fin 32) (t u : Bool) : WordFits.Statement (.xor d a b t u) := by intro x h; simp only [encode, Option.some.injEq] at h; have := boolNat_le t; have := boolNat_le u; omega
theorem WordFits.andn (d a b : Fin 32) (t u : Bool) : WordFits.Statement (.andn d a b t u) := by intro x h; simp only [encode, Option.some.injEq] at h; have := boolNat_le t; have := boolNat_le u; omega
theorem WordFits.sll (d a b : Fin 32) (t u : Bool) : WordFits.Statement (.sll d a b t u) := by intro x h; simp only [encode, Option.some.injEq] at h; have := boolNat_le t; have := boolNat_le u; omega
theorem WordFits.srl (d a b : Fin 32) (t u : Bool) : WordFits.Statement (.srl d a b t u) := by intro x h; simp only [encode, Option.some.injEq] at h; have := boolNat_le t; have := boolNat_le u; omega
theorem WordFits.sra (d a b : Fin 32) (t u : Bool) : WordFits.Statement (.sra d a b t u) := by intro x h; simp only [encode, Option.some.injEq] at h; have := boolNat_le t; have := boolNat_le u; omega
theorem WordFits.ror (d a b : Fin 32) (t u : Bool) : WordFits.Statement (.ror d a b t u) := by intro x h; simp only [encode, Option.some.injEq] at h; have := boolNat_le t; have := boolNat_le u; omega
theorem WordFits.min (d a b : Fin 32) (t u : Bool) : WordFits.Statement (.min d a b t u) := by intro x h; simp only [encode, Option.some.injEq] at h; have := boolNat_le t; have := boolNat_le u; omega
theorem WordFits.max (d a b : Fin 32) (t u : Bool) : WordFits.Statement (.max d a b t u) := by intro x h; simp only [encode, Option.some.injEq] at h; have := boolNat_le t; have := boolNat_le u; omega
theorem WordFits.minu (d a b : Fin 32) (t u : Bool) : WordFits.Statement (.minu d a b t u) := by intro x h; simp only [encode, Option.some.injEq] at h; have := boolNat_le t; have := boolNat_le u; omega
theorem WordFits.maxu (d a b : Fin 32) (t u : Bool) : WordFits.Statement (.maxu d a b t u) := by intro x h; simp only [encode, Option.some.injEq] at h; have := boolNat_le t; have := boolNat_le u; omega
theorem WordFits.slt (d a b : Fin 32) (t u : Bool) : WordFits.Statement (.slt d a b t u) := by intro x h; simp only [encode, Option.some.injEq] at h; have := boolNat_le t; have := boolNat_le u; omega
theorem WordFits.sltu (d a b : Fin 32) (t u : Bool) : WordFits.Statement (.sltu d a b t u) := by intro x h; simp only [encode, Option.some.injEq] at h; have := boolNat_le t; have := boolNat_le u; omega
theorem WordFits.seq (d a b : Fin 32) (t u : Bool) : WordFits.Statement (.seq d a b t u) := by intro x h; simp only [encode, Option.some.injEq] at h; have := boolNat_le t; have := boolNat_le u; omega
theorem WordFits.sel (d a b : Fin 32) (t u : Bool) : WordFits.Statement (.sel d a b t u) := by intro x h; simp only [encode, Option.some.injEq] at h; have := boolNat_le t; have := boolNat_le u; omega
theorem WordFits.clz (d a : Fin 32) (t : Bool) : WordFits.Statement (.clz d a t) := by intro x h; simp only [encode, Option.some.injEq] at h; have := boolNat_le t; omega
theorem WordFits.ctz (d a : Fin 32) (t : Bool) : WordFits.Statement (.ctz d a t) := by intro x h; simp only [encode, Option.some.injEq] at h; have := boolNat_le t; omega
theorem WordFits.popc (d a : Fin 32) (t : Bool) : WordFits.Statement (.popc d a t) := by intro x h; simp only [encode, Option.some.injEq] at h; have := boolNat_le t; omega
theorem WordFits.brev (d a : Fin 32) (t : Bool) : WordFits.Statement (.brev d a t) := by intro x h; simp only [encode, Option.some.injEq] at h; have := boolNat_le t; omega
theorem WordFits.bswap (d a : Fin 32) (t : Bool) : WordFits.Statement (.bswap d a t) := by intro x h; simp only [encode, Option.some.injEq] at h; have := boolNat_le t; omega
theorem WordFits.addi (d a : Fin 32) (t : Bool) (i : Fin 2048) : WordFits.Statement (.addi d a t i) := by intro x h; simp only [encode, Option.some.injEq] at h; have := boolNat_le t; omega
theorem WordFits.andi (d a : Fin 32) (t : Bool) (i : Fin 2048) : WordFits.Statement (.andi d a t i) := by intro x h; simp only [encode, Option.some.injEq] at h; have := boolNat_le t; omega
theorem WordFits.ori (d a : Fin 32) (t : Bool) (i : Fin 2048) : WordFits.Statement (.ori d a t i) := by intro x h; simp only [encode, Option.some.injEq] at h; have := boolNat_le t; omega
theorem WordFits.xori (d a : Fin 32) (t : Bool) (i : Fin 2048) : WordFits.Statement (.xori d a t i) := by intro x h; simp only [encode, Option.some.injEq] at h; have := boolNat_le t; omega
theorem WordFits.slti (d a : Fin 32) (t : Bool) (i : Fin 2048) : WordFits.Statement (.slti d a t i) := by intro x h; simp only [encode, Option.some.injEq] at h; have := boolNat_le t; omega
theorem WordFits.sltiu (d a : Fin 32) (t : Bool) (i : Fin 2048) : WordFits.Statement (.sltiu d a t i) := by intro x h; simp only [encode, Option.some.injEq] at h; have := boolNat_le t; omega
theorem WordFits.slli (d a : Fin 32) (t : Bool) (i : Fin 64) : WordFits.Statement (.slli d a t i) := by intro x h; simp only [encode, Option.some.injEq] at h; have := boolNat_le t; omega
theorem WordFits.srli (d a : Fin 32) (t : Bool) (i : Fin 64) : WordFits.Statement (.srli d a t i) := by intro x h; simp only [encode, Option.some.injEq] at h; have := boolNat_le t; omega
theorem WordFits.srai (d a : Fin 32) (t : Bool) (i : Fin 64) : WordFits.Statement (.srai d a t i) := by intro x h; simp only [encode, Option.some.injEq] at h; have := boolNat_le t; omega
theorem WordFits.lhi (d : Fin 32) (i : Fin 2097152) : WordFits.Statement (.lhi d i) := by intro x h; simp only [encode, Option.some.injEq] at h; omega
theorem WordFits.apc (d : Fin 32) (i : Fin 2097152) : WordFits.Statement (.apc d i) := by intro x h; simp only [encode, Option.some.injEq] at h; omega
theorem WordFits.bfx (d a : Fin 32) (t : Bool) (w p : Fin 64) : WordFits.Statement (.bfx d a t w p) := by intro x h; simp only [encode, Option.some.injEq] at h; have := boolNat_le t; omega
theorem WordFits.bfxs (d a : Fin 32) (t : Bool) (w p : Fin 64) : WordFits.Statement (.bfxs d a t w p) := by intro x h; simp only [encode, Option.some.injEq] at h; have := boolNat_le t; omega
theorem WordFits.bfi (d a : Fin 32) (t : Bool) (w p : Fin 64) : WordFits.Statement (.bfi d a t w p) := by intro x h; simp only [encode, Option.some.injEq] at h; have := boolNat_le t; omega
theorem WordFits.bbinit (a b : Fin 32) (t u : Bool) : WordFits.Statement (.bbinit a b t u) := by intro x h; simp only [encode, Option.some.injEq] at h; have := boolNat_le t; have := boolNat_le u; omega
theorem WordFits.bbget (d : Fin 32) (n : Fin 64) : WordFits.Statement (.bbget d n) := by intro x h; simp only [encode, Option.some.injEq] at h; omega
theorem WordFits.bbpeek (d : Fin 32) (n : Fin 64) : WordFits.Statement (.bbpeek d n) := by intro x h; simp only [encode, Option.some.injEq] at h; omega
theorem WordFits.bbskip (n : Fin 64) : WordFits.Statement (.bbskip n) := by intro x h; simp only [encode, Option.some.injEq] at h; omega
theorem WordFits.bbalign (n : Fin 64) : WordFits.Statement (.bbalign n) := by intro x h; simp only [encode, Option.some.injEq] at h; omega
theorem WordFits.bbemit (a : Fin 32) (t : Bool) (n : Fin 64) : WordFits.Statement (.bbemit a t n) := by intro x h; simp only [encode, Option.some.injEq] at h; have := boolNat_le t; omega
theorem WordFits.bbflush : WordFits.Statement .bbflush := by intro x h; simp only [encode, Option.some.injEq] at h; omega
theorem WordFits.bbtell (d : Fin 32) : WordFits.Statement (.bbtell d) := by intro x h; simp only [encode, Option.some.injEq] at h; omega
theorem WordFits.beq (a b : Fin 32) (o : Fin 65536) : WordFits.Statement (.beq a b o) := by intro x h; simp only [encode, Option.some.injEq] at h; omega
theorem WordFits.bne (a b : Fin 32) (o : Fin 65536) : WordFits.Statement (.bne a b o) := by intro x h; simp only [encode, Option.some.injEq] at h; omega
theorem WordFits.blt (a b : Fin 32) (o : Fin 65536) : WordFits.Statement (.blt a b o) := by intro x h; simp only [encode, Option.some.injEq] at h; omega
theorem WordFits.bge (a b : Fin 32) (o : Fin 65536) : WordFits.Statement (.bge a b o) := by intro x h; simp only [encode, Option.some.injEq] at h; omega
theorem WordFits.bltu (a b : Fin 32) (o : Fin 65536) : WordFits.Statement (.bltu a b o) := by intro x h; simp only [encode, Option.some.injEq] at h; omega
theorem WordFits.bgeu (a b : Fin 32) (o : Fin 65536) : WordFits.Statement (.bgeu a b o) := by intro x h; simp only [encode, Option.some.injEq] at h; omega
theorem WordFits.jal (d : Fin 32) (o : Fin 2097152) : WordFits.Statement (.jal d o) := by intro x h; simp only [encode, Option.some.injEq] at h; omega
theorem WordFits.jalr (d a : Fin 32) (t : Bool) (i : Fin 2048) : WordFits.Statement (.jalr d a t i) := by intro x h; simp only [encode, Option.some.injEq] at h; have := boolNat_le t; omega
theorem WordFits.lb (d a : Fin 32) (t : Bool) (i : Fin 4096) : WordFits.Statement (.lb d a t i) := by intro x h; simp only [encode, Option.some.injEq] at h; have := boolNat_le t; omega
theorem WordFits.lbs (d a : Fin 32) (t : Bool) (i : Fin 4096) : WordFits.Statement (.lbs d a t i) := by intro x h; simp only [encode, Option.some.injEq] at h; have := boolNat_le t; omega
theorem WordFits.lh (d a : Fin 32) (t : Bool) (i : Fin 4096) : WordFits.Statement (.lh d a t i) := by intro x h; simp only [encode, Option.some.injEq] at h; have := boolNat_le t; omega
theorem WordFits.lhs (d a : Fin 32) (t : Bool) (i : Fin 4096) : WordFits.Statement (.lhs d a t i) := by intro x h; simp only [encode, Option.some.injEq] at h; have := boolNat_le t; omega
theorem WordFits.lw (d a : Fin 32) (t : Bool) (i : Fin 4096) : WordFits.Statement (.lw d a t i) := by intro x h; simp only [encode, Option.some.injEq] at h; have := boolNat_le t; omega
theorem WordFits.lws (d a : Fin 32) (t : Bool) (i : Fin 4096) : WordFits.Statement (.lws d a t i) := by intro x h; simp only [encode, Option.some.injEq] at h; have := boolNat_le t; omega
theorem WordFits.ld (d a : Fin 32) (t : Bool) (i : Fin 4096) : WordFits.Statement (.ld d a t i) := by intro x h; simp only [encode, Option.some.injEq] at h; have := boolNat_le t; omega
theorem WordFits.sb (d a : Fin 32) (t : Bool) (i : Fin 4096) : WordFits.Statement (.sb d a t i) := by intro x h; simp only [encode, Option.some.injEq] at h; have := boolNat_le t; omega
theorem WordFits.sh (d a : Fin 32) (t : Bool) (i : Fin 4096) : WordFits.Statement (.sh d a t i) := by intro x h; simp only [encode, Option.some.injEq] at h; have := boolNat_le t; omega
theorem WordFits.sw (d a : Fin 32) (t : Bool) (i : Fin 4096) : WordFits.Statement (.sw d a t i) := by intro x h; simp only [encode, Option.some.injEq] at h; have := boolNat_le t; omega
theorem WordFits.sd (d a : Fin 32) (t : Bool) (i : Fin 4096) : WordFits.Statement (.sd d a t i) := by intro x h; simp only [encode, Option.some.injEq] at h; have := boolNat_le t; omega
theorem WordFits.ldfe (d a : Fin 32) (t : Bool) (m : Fin 8) (o : Fin 512) : WordFits.Statement (.ldfe d a t m o) := by intro x h; simp only [encode, Option.some.injEq] at h; have := boolNat_le t; omega
theorem WordFits.sdfe (d a : Fin 32) (t : Bool) (m : Fin 8) (o : Fin 512) : WordFits.Statement (.sdfe d a t m o) := by intro x h; simp only [encode, Option.some.injEq] at h; have := boolNat_le t; omega
theorem WordFits.feget (d a : Fin 32) (t : Bool) (o : Fin 512) : WordFits.Statement (.feget d a t o) := by intro x h; simp only [encode, Option.some.injEq] at h; have := boolNat_le t; omega
theorem WordFits.feset (d a : Fin 32) (t : Bool) (o : Fin 512) : WordFits.Statement (.feset d a t o) := by intro x h; simp only [encode, Option.some.injEq] at h; have := boolNat_le t; omega
theorem WordFits.amoadd (d a b : Fin 32) (t u w : Bool) : WordFits.Statement (.amoadd d a b t u w) := by intro x h; simp only [encode, Option.some.injEq] at h; have := boolNat_le t; have := boolNat_le u; have := boolNat_le w; omega
theorem WordFits.amoswap (d a b : Fin 32) (t u w : Bool) : WordFits.Statement (.amoswap d a b t u w) := by intro x h; simp only [encode, Option.some.injEq] at h; have := boolNat_le t; have := boolNat_le u; have := boolNat_le w; omega
theorem WordFits.amocas (d a b : Fin 32) (t u w : Bool) : WordFits.Statement (.amocas d a b t u w) := by intro x h; simp only [encode, Option.some.injEq] at h; have := boolNat_le t; have := boolNat_le u; have := boolNat_le w; omega
theorem WordFits.amoand (d a b : Fin 32) (t u w : Bool) : WordFits.Statement (.amoand d a b t u w) := by intro x h; simp only [encode, Option.some.injEq] at h; have := boolNat_le t; have := boolNat_le u; have := boolNat_le w; omega
theorem WordFits.amoor (d a b : Fin 32) (t u w : Bool) : WordFits.Statement (.amoor d a b t u w) := by intro x h; simp only [encode, Option.some.injEq] at h; have := boolNat_le t; have := boolNat_le u; have := boolNat_le w; omega
theorem WordFits.amoxor (d a b : Fin 32) (t u w : Bool) : WordFits.Statement (.amoxor d a b t u w) := by intro x h; simp only [encode, Option.some.injEq] at h; have := boolNat_le t; have := boolNat_le u; have := boolNat_le w; omega
theorem WordFits.amomin (d a b : Fin 32) (t u w : Bool) : WordFits.Statement (.amomin d a b t u w) := by intro x h; simp only [encode, Option.some.injEq] at h; have := boolNat_le t; have := boolNat_le u; have := boolNat_le w; omega
theorem WordFits.amomax (d a b : Fin 32) (t u w : Bool) : WordFits.Statement (.amomax d a b t u w) := by intro x h; simp only [encode, Option.some.injEq] at h; have := boolNat_le t; have := boolNat_le u; have := boolNat_le w; omega
theorem WordFits.amominu (d a b : Fin 32) (t u w : Bool) : WordFits.Statement (.amominu d a b t u w) := by intro x h; simp only [encode, Option.some.injEq] at h; have := boolNat_le t; have := boolNat_le u; have := boolNat_le w; omega
theorem WordFits.amomaxu (d a b : Fin 32) (t u w : Bool) : WordFits.Statement (.amomaxu d a b t u w) := by intro x h; simp only [encode, Option.some.injEq] at h; have := boolNat_le t; have := boolNat_le u; have := boolNat_le w; omega
theorem WordFits.amofadd (d a b : Fin 32) (t u p : Bool) : WordFits.Statement (.amofadd d a b t u p) := by intro x h; simp only [encode, Option.some.injEq] at h; have := boolNat_le t; have := boolNat_le u; have := boolNat_le p; omega
theorem WordFits.rld (d a : Fin 32) (t : Bool) (m : Fin 8) (w : Fin 4) : WordFits.Statement (.rld d a t m w) := by intro x h; simp only [encode, Option.some.injEq] at h; have := boolNat_le t; omega
theorem WordFits.rst (a b : Fin 32) (t u : Bool) (w : Fin 4) : WordFits.Statement (.rst a b t u w) := by intro x h; simp only [encode, Option.some.injEq] at h; have := boolNat_le t; have := boolNat_le u; omega
theorem WordFits.rstfe (a b : Fin 32) (t u : Bool) (m : Fin 8) : WordFits.Statement (.rstfe a b t u m) := by intro x h; simp only [encode, Option.some.injEq] at h; have := boolNat_le t; have := boolNat_le u; omega
theorem WordFits.ramo (d a b : Fin 32) (t u w : Bool) (f : Fin 16) : WordFits.Statement (.ramo d a b t u w f) := by intro x h; simp only [encode, Option.some.injEq] at h; have := boolNat_le t; have := boolNat_le u; have := boolNat_le w; omega
theorem WordFits.acq (d a : Fin 32) (s : Fin 8) : WordFits.Statement (.acq d a s) := by intro x h; simp only [encode, Option.some.injEq] at h; omega
theorem WordFits.rel (d a : Fin 32) (s : Fin 8) : WordFits.Statement (.rel d a s) := by intro x h; simp only [encode, Option.some.injEq] at h; omega
theorem WordFits.fence (s : Fin 8) : WordFits.Statement (.fence s) := by intro x h; simp only [encode, Option.some.injEq] at h; omega
theorem WordFits.qfence (m : Fin 4096) : WordFits.Statement (.qfence m) := by intro x h; simp only [encode, Option.some.injEq] at h; omega
theorem WordFits.bind (d a : Fin 32) : WordFits.Statement (.bind d a) := by intro x h; simp only [encode, Option.some.injEq] at h; omega
theorem WordFits.ipf (a : Fin 32) (l : Bool) (n : Fin 512) : WordFits.Statement (.ipf a l n) := by intro x h; simp only [encode, Option.some.injEq] at h; have := boolNat_le l; omega
theorem WordFits.ipin (d a : Fin 32) (l : Bool) (n : Fin 512) : WordFits.Statement (.ipin d a l n) := by intro x h; simp only [encode, Option.some.injEq] at h; have := boolNat_le l; omega
theorem WordFits.iunpin (a : Fin 32) (l : Bool) (n : Fin 512) : WordFits.Statement (.iunpin a l n) := by intro x h; simp only [encode, Option.some.injEq] at h; have := boolNat_le l; omega
theorem WordFits.dpf (a : Fin 32) (n : Fin 512) : WordFits.Statement (.dpf a n) := by intro x h; simp only [encode, Option.some.injEq] at h; omega
theorem WordFits.cwb (a : Fin 32) (n : Fin 512) : WordFits.Statement (.cwb a n) := by intro x h; simp only [encode, Option.some.injEq] at h; omega
theorem WordFits.cinv (a : Fin 32) (w : Bool) (n : Fin 512) : WordFits.Statement (.cinv a w n) := by intro x h; simp only [encode, Option.some.injEq] at h; have := boolNat_le w; omega
theorem WordFits.fadd (d a b : Fin 32) (t u : Bool) (p : Fin 4) (r : Fin 8) : WordFits.Statement (.fadd d a b t u p r) := by intro x h; simp only [encode, Option.some.injEq] at h; have := boolNat_le t; have := boolNat_le u; omega
theorem WordFits.fsub (d a b : Fin 32) (t u : Bool) (p : Fin 4) (r : Fin 8) : WordFits.Statement (.fsub d a b t u p r) := by intro x h; simp only [encode, Option.some.injEq] at h; have := boolNat_le t; have := boolNat_le u; omega
theorem WordFits.fmul (d a b : Fin 32) (t u : Bool) (p : Fin 4) (r : Fin 8) : WordFits.Statement (.fmul d a b t u p r) := by intro x h; simp only [encode, Option.some.injEq] at h; have := boolNat_le t; have := boolNat_le u; omega
theorem WordFits.fdiv (d a b : Fin 32) (t u : Bool) (p : Fin 4) (r : Fin 8) : WordFits.Statement (.fdiv d a b t u p r) := by intro x h; simp only [encode, Option.some.injEq] at h; have := boolNat_le t; have := boolNat_le u; omega
theorem WordFits.fsqrt (d a : Fin 32) (t : Bool) (p : Fin 4) (r : Fin 8) : WordFits.Statement (.fsqrt d a t p r) := by intro x h; simp only [encode, Option.some.injEq] at h; have := boolNat_le t; omega
theorem WordFits.fmin (d a b : Fin 32) (t u : Bool) (p : Fin 4) : WordFits.Statement (.fmin d a b t u p) := by intro x h; simp only [encode, Option.some.injEq] at h; have := boolNat_le t; have := boolNat_le u; omega
theorem WordFits.fmax (d a b : Fin 32) (t u : Bool) (p : Fin 4) : WordFits.Statement (.fmax d a b t u p) := by intro x h; simp only [encode, Option.some.injEq] at h; have := boolNat_le t; have := boolNat_le u; omega
theorem WordFits.fminm (d a b : Fin 32) (t u : Bool) (p : Fin 4) : WordFits.Statement (.fminm d a b t u p) := by intro x h; simp only [encode, Option.some.injEq] at h; have := boolNat_le t; have := boolNat_le u; omega
theorem WordFits.fmaxm (d a b : Fin 32) (t u : Bool) (p : Fin 4) : WordFits.Statement (.fmaxm d a b t u p) := by intro x h; simp only [encode, Option.some.injEq] at h; have := boolNat_le t; have := boolNat_le u; omega
theorem WordFits.feq (d a b : Fin 32) (t u : Bool) (p : Fin 4) : WordFits.Statement (.feq d a b t u p) := by intro x h; simp only [encode, Option.some.injEq] at h; have := boolNat_le t; have := boolNat_le u; omega
theorem WordFits.flt (d a b : Fin 32) (t u : Bool) (p : Fin 4) : WordFits.Statement (.flt d a b t u p) := by intro x h; simp only [encode, Option.some.injEq] at h; have := boolNat_le t; have := boolNat_le u; omega
theorem WordFits.fle (d a b : Fin 32) (t u : Bool) (p : Fin 4) : WordFits.Statement (.fle d a b t u p) := by intro x h; simp only [encode, Option.some.injEq] at h; have := boolNat_le t; have := boolNat_le u; omega
theorem WordFits.fclass (d a : Fin 32) (t : Bool) (p : Fin 4) : WordFits.Statement (.fclass d a t p) := by intro x h; simp only [encode, Option.some.injEq] at h; have := boolNat_le t; omega
theorem WordFits.fsgnj (d a b : Fin 32) (t u : Bool) (p : Fin 4) : WordFits.Statement (.fsgnj d a b t u p) := by intro x h; simp only [encode, Option.some.injEq] at h; have := boolNat_le t; have := boolNat_le u; omega
theorem WordFits.fsgnjn (d a b : Fin 32) (t u : Bool) (p : Fin 4) : WordFits.Statement (.fsgnjn d a b t u p) := by intro x h; simp only [encode, Option.some.injEq] at h; have := boolNat_le t; have := boolNat_le u; omega
theorem WordFits.fsgnjx (d a b : Fin 32) (t u : Bool) (p : Fin 4) : WordFits.Statement (.fsgnjx d a b t u p) := by intro x h; simp only [encode, Option.some.injEq] at h; have := boolNat_le t; have := boolNat_le u; omega
theorem WordFits.fma (d a b c : Fin 32) (p : Bool) (r : Fin 8) : WordFits.Statement (.fma d a b c p r) := by intro x h; simp only [encode, Option.some.injEq] at h; have := boolNat_le p; omega
theorem WordFits.fms (d a b c : Fin 32) (p : Bool) (r : Fin 8) : WordFits.Statement (.fms d a b c p r) := by intro x h; simp only [encode, Option.some.injEq] at h; have := boolNat_le p; omega
theorem WordFits.fnms (d a b c : Fin 32) (p : Bool) (r : Fin 8) : WordFits.Statement (.fnms d a b c p r) := by intro x h; simp only [encode, Option.some.injEq] at h; have := boolNat_le p; omega
theorem WordFits.fnma (d a b c : Fin 32) (p : Bool) (r : Fin 8) : WordFits.Statement (.fnma d a b c p r) := by intro x h; simp only [encode, Option.some.injEq] at h; have := boolNat_le p; omega
theorem WordFits.fcvt (d a : Fin 32) (w : Fin 4) (t : Bool) (x y r : Fin 8) : WordFits.Statement (.fcvt d a w t x y r) := by intro x h; simp only [encode, Option.some.injEq] at h; have := boolNat_le t; omega
theorem WordFits.fexp2 (d a : Fin 32) (t : Bool) (p : Fin 4) : WordFits.Statement (.fexp2 d a t p) := by intro x h; simp only [encode, Option.some.injEq] at h; have := boolNat_le t; omega
theorem WordFits.flog2 (d a : Fin 32) (t : Bool) (p : Fin 4) : WordFits.Statement (.flog2 d a t p) := by intro x h; simp only [encode, Option.some.injEq] at h; have := boolNat_le t; omega
theorem WordFits.fexp (d a : Fin 32) (t : Bool) (p : Fin 4) : WordFits.Statement (.fexp d a t p) := by intro x h; simp only [encode, Option.some.injEq] at h; have := boolNat_le t; omega
theorem WordFits.fln (d a : Fin 32) (t : Bool) (p : Fin 4) : WordFits.Statement (.fln d a t p) := by intro x h; simp only [encode, Option.some.injEq] at h; have := boolNat_le t; omega
theorem WordFits.frcp (d a : Fin 32) (t : Bool) (p : Fin 4) : WordFits.Statement (.frcp d a t p) := by intro x h; simp only [encode, Option.some.injEq] at h; have := boolNat_le t; omega
theorem WordFits.frsq (d a : Fin 32) (t : Bool) (p : Fin 4) : WordFits.Statement (.frsq d a t p) := by intro x h; simp only [encode, Option.some.injEq] at h; have := boolNat_le t; omega
theorem WordFits.fsin (d a : Fin 32) (t : Bool) (p : Fin 4) : WordFits.Statement (.fsin d a t p) := by intro x h; simp only [encode, Option.some.injEq] at h; have := boolNat_le t; omega
theorem WordFits.fcos (d a : Fin 32) (t : Bool) (p : Fin 4) : WordFits.Statement (.fcos d a t p) := by intro x h; simp only [encode, Option.some.injEq] at h; have := boolNat_le t; omega
theorem WordFits.ftanh (d a : Fin 32) (t : Bool) (p : Fin 4) : WordFits.Statement (.ftanh d a t p) := by intro x h; simp only [encode, Option.some.injEq] at h; have := boolNat_le t; omega
theorem WordFits.fsigm (d a : Fin 32) (t : Bool) (p : Fin 4) : WordFits.Statement (.fsigm d a t p) := by intro x h; simp only [encode, Option.some.injEq] at h; have := boolNat_le t; omega
theorem WordFits.ferf (d a : Fin 32) (t : Bool) (p : Fin 4) : WordFits.Statement (.ferf d a t p) := by intro x h; simp only [encode, Option.some.injEq] at h; have := boolNat_le t; omega
theorem WordFits.xclr (a : Fin 32) (t : Bool) : WordFits.Statement (.xclr a t) := by intro x h; simp only [encode, Option.some.injEq] at h; have := boolNat_le t; omega
theorem WordFits.xacc (a b : Fin 32) (t u : Bool) (p : Fin 4) : WordFits.Statement (.xacc a b t u p) := by intro x h; simp only [encode, Option.some.injEq] at h; have := boolNat_le t; have := boolNat_le u; omega
theorem WordFits.xrnd (d a : Fin 32) (t : Bool) (p : Fin 4) (r : Fin 8) : WordFits.Statement (.xrnd d a t p r) := by intro x h; simp only [encode, Option.some.injEq] at h; have := boolNat_le t; omega
theorem WordFits.vadd (d a b : Fin 16) (y : Fin 8) : WordFits.Statement (.vadd d a b y) := by intro x h; simp only [encode, Option.some.injEq] at h; omega
theorem WordFits.vsub (d a b : Fin 16) (y : Fin 8) : WordFits.Statement (.vsub d a b y) := by intro x h; simp only [encode, Option.some.injEq] at h; omega
theorem WordFits.vmul (d a b : Fin 16) (y : Fin 8) : WordFits.Statement (.vmul d a b y) := by intro x h; simp only [encode, Option.some.injEq] at h; omega
theorem WordFits.vfma (d a b : Fin 16) (y : Fin 8) : WordFits.Statement (.vfma d a b y) := by intro x h; simp only [encode, Option.some.injEq] at h; omega
theorem WordFits.vmin (d a b : Fin 16) (y : Fin 8) : WordFits.Statement (.vmin d a b y) := by intro x h; simp only [encode, Option.some.injEq] at h; omega
theorem WordFits.vmax (d a b : Fin 16) (y : Fin 8) : WordFits.Statement (.vmax d a b y) := by intro x h; simp only [encode, Option.some.injEq] at h; omega
theorem WordFits.vand (d a b : Fin 16) (y : Fin 8) : WordFits.Statement (.vand d a b y) := by intro x h; simp only [encode, Option.some.injEq] at h; omega
theorem WordFits.vor (d a b : Fin 16) (y : Fin 8) : WordFits.Statement (.vor d a b y) := by intro x h; simp only [encode, Option.some.injEq] at h; omega
theorem WordFits.vxor (d a b : Fin 16) (y : Fin 8) : WordFits.Statement (.vxor d a b y) := by intro x h; simp only [encode, Option.some.injEq] at h; omega
theorem WordFits.vshl (d a b : Fin 16) (y : Fin 8) : WordFits.Statement (.vshl d a b y) := by intro x h; simp only [encode, Option.some.injEq] at h; omega
theorem WordFits.vshr (d a b : Fin 16) (y : Fin 8) : WordFits.Statement (.vshr d a b y) := by intro x h; simp only [encode, Option.some.injEq] at h; omega
theorem WordFits.vcmp (d a b : Fin 16) (y : Fin 8) : WordFits.Statement (.vcmp d a b y) := by intro x h; simp only [encode, Option.some.injEq] at h; omega
theorem WordFits.vsel (d a b : Fin 16) (y : Fin 8) : WordFits.Statement (.vsel d a b y) := by intro x h; simp only [encode, Option.some.injEq] at h; omega
theorem WordFits.vperm (d a b : Fin 16) (y : Fin 8) : WordFits.Statement (.vperm d a b y) := by intro x h; simp only [encode, Option.some.injEq] at h; omega
theorem WordFits.vmov (d a : Fin 16) (y : Fin 8) : WordFits.Statement (.vmov d a y) := by intro x h; simp only [encode, Option.some.injEq] at h; omega
theorem WordFits.vbcst (d : Fin 16) (a : Fin 32) (t : Bool) (y : Fin 8) : WordFits.Statement (.vbcst d a t y) := by intro x h; simp only [encode, Option.some.injEq] at h; have := boolNat_le t; omega
theorem WordFits.vredadd (d : Fin 32) (a : Fin 16) (y : Fin 8) : WordFits.Statement (.vredadd d a y) := by intro x h; simp only [encode, Option.some.injEq] at h; omega
theorem WordFits.vredmax (d : Fin 32) (a : Fin 16) (y : Fin 8) : WordFits.Statement (.vredmax d a y) := by intro x h; simp only [encode, Option.some.injEq] at h; omega
theorem WordFits.vredmin (d : Fin 32) (a : Fin 16) (y : Fin 8) : WordFits.Statement (.vredmin d a y) := by intro x h; simp only [encode, Option.some.injEq] at h; omega
theorem WordFits.vcvt (d a : Fin 16) (x y : Fin 8) : WordFits.Statement (.vcvt d a x y) := by intro x h; simp only [encode, Option.some.injEq] at h; omega
theorem WordFits.vqnt (d a : Fin 16) (b : Fin 32) (u : Bool) : WordFits.Statement (.vqnt d a b u) := by intro x h; simp only [encode, Option.some.injEq] at h; have := boolNat_le u; omega
theorem WordFits.vmaxx (d : Fin 32) (a : Fin 16) : WordFits.Statement (.vmaxx d a) := by intro x h; simp only [encode, Option.some.injEq] at h; omega
theorem WordFits.vexp (d a : Fin 16) (y : Fin 8) : WordFits.Statement (.vexp d a y) := by intro x h; simp only [encode, Option.some.injEq] at h; omega
theorem WordFits.vln (d a : Fin 16) (y : Fin 8) : WordFits.Statement (.vln d a y) := by intro x h; simp only [encode, Option.some.injEq] at h; omega
theorem WordFits.vrcp (d a : Fin 16) (y : Fin 8) : WordFits.Statement (.vrcp d a y) := by intro x h; simp only [encode, Option.some.injEq] at h; omega
theorem WordFits.vrsq (d a : Fin 16) (y : Fin 8) : WordFits.Statement (.vrsq d a y) := by intro x h; simp only [encode, Option.some.injEq] at h; omega
theorem WordFits.vtanh (d a : Fin 16) (y : Fin 8) : WordFits.Statement (.vtanh d a y) := by intro x h; simp only [encode, Option.some.injEq] at h; omega
theorem WordFits.vclaim (d a : Fin 32) (t : Bool) : WordFits.Statement (.vclaim d a t) := by intro x h; simp only [encode, Option.some.injEq] at h; have := boolNat_le t; omega
theorem WordFits.vreneg (d a : Fin 32) (t : Bool) : WordFits.Statement (.vreneg d a t) := by intro x h; simp only [encode, Option.some.injEq] at h; have := boolNat_le t; omega
theorem WordFits.vrel : WordFits.Statement .vrel := by intro x h; simp only [encode, Option.some.injEq] at h; omega
theorem WordFits.vld (d : Fin 16) (a : Fin 32) (t : Bool) : WordFits.Statement (.vld d a t) := by intro x h; simp only [encode, Option.some.injEq] at h; have := boolNat_le t; omega
theorem WordFits.vlds (d : Fin 16) (a b : Fin 32) (t u : Bool) : WordFits.Statement (.vlds d a b t u) := by intro x h; simp only [encode, Option.some.injEq] at h; have := boolNat_le t; have := boolNat_le u; omega
theorem WordFits.vgth (d : Fin 16) (a : Fin 32) (b : Fin 16) (t : Bool) : WordFits.Statement (.vgth d a b t) := by intro x h; simp only [encode, Option.some.injEq] at h; have := boolNat_le t; omega
theorem WordFits.vst (d : Fin 16) (a : Fin 32) (t : Bool) : WordFits.Statement (.vst d a t) := by intro x h; simp only [encode, Option.some.injEq] at h; have := boolNat_le t; omega
theorem WordFits.vsts (d : Fin 16) (a b : Fin 32) (t u : Bool) : WordFits.Statement (.vsts d a b t u) := by intro x h; simp only [encode, Option.some.injEq] at h; have := boolNat_le t; have := boolNat_le u; omega
theorem WordFits.vsct (d : Fin 16) (a : Fin 32) (b : Fin 16) (t : Bool) : WordFits.Statement (.vsct d a b t) := by intro x h; simp only [encode, Option.some.injEq] at h; have := boolNat_le t; omega
theorem WordFits.vchain (a : Fin 32) (t : Bool) : WordFits.Statement (.vchain a t) := by intro x h; simp only [encode, Option.some.injEq] at h; have := boolNat_le t; omega
theorem WordFits.mcfg (w : Fin 256) (a : Fin 32) : WordFits.Statement (.mcfg w a) := by intro x h; simp only [encode, Option.some.injEq] at h; omega
theorem WordFits.mldb (k : Fin 8) (w : Fin 256) (a b : Fin 32) : WordFits.Statement (.mldb k w a b) := by intro x h; simp only [encode, Option.some.injEq] at h; omega
theorem WordFits.mlda (k : Fin 8) (w : Fin 256) (a b : Fin 32) : WordFits.Statement (.mlda k w a b) := by intro x h; simp only [encode, Option.some.injEq] at h; omega
theorem WordFits.mm16 (k : Fin 8) (w : Fin 256) (a b : Fin 32) : WordFits.Statement (.mm16 k w a b) := by intro x h; simp only [encode, Option.some.injEq] at h; omega
theorem WordFits.mtile (k : Fin 8) (w : Fin 256) (a : Fin 32) : WordFits.Statement (.mtile k w a) := by intro x h; simp only [encode, Option.some.injEq] at h; omega
theorem WordFits.mzero (k : Fin 8) (w : Fin 256) (a b : Fin 32) : WordFits.Statement (.mzero k w a b) := by intro x h; simp only [encode, Option.some.injEq] at h; omega
theorem WordFits.mstc (k : Fin 8) (w : Fin 256) (a b : Fin 32) : WordFits.Statement (.mstc k w a b) := by intro x h; simp only [encode, Option.some.injEq] at h; omega
theorem WordFits.mprog (w : Fin 256) (a b : Fin 32) : WordFits.Statement (.mprog w a b) := by intro x h; simp only [encode, Option.some.injEq] at h; omega
theorem WordFits.mjoin (k : Fin 8) (w : Fin 256) (a : Fin 32) : WordFits.Statement (.mjoin k w a) := by intro x h; simp only [encode, Option.some.injEq] at h; omega
theorem WordFits.mgv (k : Fin 8) (w : Fin 256) (a b : Fin 32) : WordFits.Statement (.mgv k w a b) := by intro x h; simp only [encode, Option.some.injEq] at h; omega
theorem WordFits.mgvb (k : Fin 8) (w : Fin 256) (a b : Fin 32) : WordFits.Statement (.mgvb k w a b) := by intro x h; simp only [encode, Option.some.injEq] at h; omega
theorem WordFits.mcbt (k : Fin 8) (w : Fin 256) (a b : Fin 32) : WordFits.Statement (.mcbt k w a b) := by intro x h; simp only [encode, Option.some.injEq] at h; omega
theorem WordFits.send (k : Fin 8) (w : Fin 256) (a b : Fin 32) : WordFits.Statement (.send k w a b) := by intro x h; simp only [encode, Option.some.injEq] at h; omega
theorem WordFits.sendx (k : Fin 8) (w : Fin 256) (a b : Fin 32) : WordFits.Statement (.sendx k w a b) := by intro x h; simp only [encode, Option.some.injEq] at h; omega
theorem WordFits.dget (k : Fin 8) (w : Fin 256) (a b : Fin 32) : WordFits.Statement (.dget k w a b) := by intro x h; simp only [encode, Option.some.injEq] at h; omega
theorem WordFits.dgetl (k : Fin 8) (w : Fin 256) (a b : Fin 32) : WordFits.Statement (.dgetl k w a b) := by intro x h; simp only [encode, Option.some.injEq] at h; omega
theorem WordFits.darith (k : Fin 8) (w : Fin 256) (a b : Fin 32) : WordFits.Statement (.darith k w a b) := by intro x h; simp only [encode, Option.some.injEq] at h; omega
theorem WordFits.cfollow (k : Fin 8) (w : Fin 256) (a b : Fin 32) : WordFits.Statement (.cfollow k w a b) := by intro x h; simp only [encode, Option.some.injEq] at h; omega
theorem WordFits.cquery (k : Fin 8) (w : Fin 256) (a b : Fin 32) : WordFits.Statement (.cquery k w a b) := by intro x h; simp only [encode, Option.some.injEq] at h; omega
theorem WordFits.ccancel (k : Fin 8) (w : Fin 256) (a : Fin 32) : WordFits.Statement (.ccancel k w a) := by intro x h; simp only [encode, Option.some.injEq] at h; omega
theorem WordFits.xreq (k : Fin 8) (w : Fin 256) (a b : Fin 32) : WordFits.Statement (.xreq k w a b) := by intro x h; simp only [encode, Option.some.injEq] at h; omega
theorem WordFits.xpoll (k : Fin 8) (w : Fin 256) (a b : Fin 32) : WordFits.Statement (.xpoll k w a b) := by intro x h; simp only [encode, Option.some.injEq] at h; omega
theorem WordFits.xres (k : Fin 8) (w : Fin 256) (a b : Fin 32) : WordFits.Statement (.xres k w a b) := by intro x h; simp only [encode, Option.some.injEq] at h; omega
theorem WordFits.engw (e : Fin 64) (w : Fin 256) (a : Fin 32) : WordFits.Statement (.engw e w a) := by intro x h; simp only [encode, Option.some.injEq] at h; omega
theorem WordFits.engr (e : Fin 64) (w : Fin 256) (b : Fin 32) : WordFits.Statement (.engr e w b) := by intro x h; simp only [encode, Option.some.injEq] at h; omega
theorem WordFits.wait (w : Fin 256) : WordFits.Statement (.wait w) := by intro x h; simp only [encode, Option.some.injEq] at h; omega
theorem WordFits.tokq (k : Fin 8) (w : Fin 256) (a b : Fin 32) : WordFits.Statement (.tokq k w a b) := by intro x h; simp only [encode, Option.some.injEq] at h; omega
theorem WordFits.svc (n : Fin 4096) : WordFits.Statement (.svc n) := by intro x h; simp only [encode, Option.some.injEq] at h; omega
theorem WordFits.brk (n : Fin 4096) : WordFits.Statement (.brk n) := by intro x h; simp only [encode, Option.some.injEq] at h; omega
theorem WordFits.eret : WordFits.Statement .eret := by intro x h; simp only [encode, Option.some.injEq] at h; omega
theorem WordFits.csrr (d : Fin 32) (c : Fin 4096) : WordFits.Statement (.csrr d c) := by intro x h; simp only [encode, Option.some.injEq] at h; omega
theorem WordFits.csrw (d a : Fin 32) (c : Fin 4096) : WordFits.Statement (.csrw d a c) := by intro x h; simp only [encode, Option.some.injEq] at h; omega
theorem WordFits.yield (n : Fin 4096) : WordFits.Statement (.yield n) := by intro x h; simp only [encode, Option.some.injEq] at h; omega
theorem WordFits.empty (d n : Fin 32) : WordFits.Statement (.empty d n) := by intro x h; simp only [encode, Option.some.injEq] at h; omega
theorem WordFits.halt : WordFits.Statement .halt := by intro x h; simp only [encode, Option.some.injEq] at h; omega
theorem WordFits.spawn (d a : Fin 32) : WordFits.Statement (.spawn d a) := by intro x h; simp only [encode, Option.some.injEq] at h; omega
theorem WordFits.tdone (n : Fin 4096) : WordFits.Statement (.tdone n) := by intro x h; simp only [encode, Option.some.injEq] at h; omega
theorem WordFits.cdopen (d a : Fin 32) : WordFits.Statement (.cdopen d a) := by intro x h; simp only [encode, Option.some.injEq] at h; omega
theorem WordFits.cdpres (d a : Fin 32) (n : Fin 256) : WordFits.Statement (.cdpres d a n) := by intro x h; simp only [encode, Option.some.injEq] at h; omega
theorem WordFits.cdclose (d a : Fin 32) : WordFits.Statement (.cdclose d a) := by intro x h; simp only [encode, Option.some.injEq] at h; omega
theorem WordFits.pair (d : Fin 32) : WordFits.Statement (.pair d) := by intro x h; simp only [encode, Option.some.injEq] at h; omega
theorem WordFits.unpair (d : Fin 32) : WordFits.Statement (.unpair d) := by intro x h; simp only [encode, Option.some.injEq] at h; omega
theorem WordFits.rcommit (d a : Fin 32) (n : Fin 64) : WordFits.Statement (.rcommit d a n) := by intro x h; simp only [encode, Option.some.injEq] at h; omega
theorem WordFits.aswap (d a : Fin 32) (k : Bool) (n : Fin 256) : WordFits.Statement (.aswap d a k n) := by intro x h; simp only [encode, Option.some.injEq] at h; have := boolNat_le k; omega
theorem WordFits.illegalInstruction (word : BitVec 32) : WordFits.Statement (.illegalInstruction word) := by intro x h; simp [encode] at h
theorem WordFits.rotationBoundary (die : Nat) : WordFits.Statement (.rotationBoundary die) := by intro x h; simp [encode] at h
theorem WordFits.balancingInterval (die : Nat) : WordFits.Statement (.balancingInterval die) := by intro x h; simp [encode] at h
theorem WordFits.dispatchDecision (part die : Nat) : WordFits.Statement (.dispatchDecision part die) := by intro x h; simp [encode] at h
theorem WordFits.preemptionDecision (part die : Nat) : WordFits.Statement (.preemptionDecision part die) := by intro x h; simp [encode] at h
theorem WordFits.faultDecision (part die : Nat) : WordFits.Statement (.faultDecision part die) := by intro x h; simp [encode] at h
theorem WordFits.stage (part : Nat) : WordFits.Statement (.stage part) := by intro x h; simp [encode] at h
theorem WordFits.policySwitch (part die : Nat) : WordFits.Statement (.policySwitch part die) := by intro x h; simp [encode] at h
theorem WordFits.gangSliceRequest (task : Nat) : WordFits.Statement (.gangSliceRequest task) := by intro x h; simp [encode] at h
theorem WordFits.gangSliceStart (task : Nat) : WordFits.Statement (.gangSliceStart task) := by intro x h; simp [encode] at h
theorem WordFits.gangLateMemberStart (task : Nat) : WordFits.Statement (.gangLateMemberStart task) := by intro x h; simp [encode] at h
theorem WordFits.gangSliceCancel (task : Nat) : WordFits.Statement (.gangSliceCancel task) := by intro x h; simp [encode] at h
theorem WordFits.gangSliceEnd (task : Nat) : WordFits.Statement (.gangSliceEnd task) := by intro x h; simp [encode] at h
theorem WordFits.gangMembersSaved (task pkg : Nat) : WordFits.Statement (.gangMembersSaved task pkg) := by intro x h; simp [encode] at h
theorem WordFits.doorbell (xdie part : Nat) (value : BitVec 64) : WordFits.Statement (.doorbell xdie part value) := by intro x h; simp [encode] at h
theorem WordFits.launchAdmission (part : Nat) : WordFits.Statement (.launchAdmission part) := by intro x h; simp [encode] at h
theorem WordFits.heldRecordRecheck (part : Nat) : WordFits.Statement (.heldRecordRecheck part) := by intro x h; simp [encode] at h
theorem WordFits.partitionConfigWrite (part : Nat) (field : PartField) (value : BitVec 64) : WordFits.Statement (.partitionConfigWrite part field value) := by intro x h; simp [encode] at h
theorem WordFits.enadd (part : Nat) (value : BitVec 64) : WordFits.Statement (.enadd part value) := by intro x h; simp [encode] at h
theorem WordFits.stagingFetchComplete (task input : Nat) : WordFits.Statement (.stagingFetchComplete task input) := by intro x h; simp [encode] at h
theorem WordFits.stagingFetchRetry (task input : Nat) : WordFits.Statement (.stagingFetchRetry task input) := by intro x h; simp [encode] at h
theorem WordFits.taskItemDelivery (box : Nat) : WordFits.Statement (.taskItemDelivery box) := by intro x h; simp [encode] at h
theorem WordFits.go (xdie : Nat) : WordFits.Statement (.go xdie) := by intro x h; simp [encode] at h
theorem WordFits.rangeCommitDrainReport (die : Nat) : WordFits.Statement (.rangeCommitDrainReport die) := by intro x h; simp [encode] at h
theorem WordFits.rangeCommitSwitch : WordFits.Statement .rangeCommitSwitch := by intro x h; simp [encode] at h
theorem WordFits.dieMapSwitch (die : Nat) : WordFits.Statement (.dieMapSwitch die) := by intro x h; simp [encode] at h
theorem WordFits.regWindowWrite (msg : Nat) : WordFits.Statement (.regWindowWrite msg) := by intro x h; simp [encode] at h
theorem WordFits.tblWindowWrite (msg : Nat) : WordFits.Statement (.tblWindowWrite msg) := by intro x h; simp [encode] at h
theorem WordFits.homeAccess (msg : Nat) : WordFits.Statement (.homeAccess msg) := by intro x h; simp [encode] at h
theorem WordFits.replyArrival (msg : Nat) : WordFits.Statement (.replyArrival msg) := by intro x h; simp [encode] at h
theorem WordFits.asyncTrapEntry (slot : Nat) : WordFits.Statement (.asyncTrapEntry slot) := by intro x h; simp [encode] at h
theorem WordFits.journalAck (core entry : Nat) : WordFits.Statement (.journalAck core entry) := by intro x h; simp [encode] at h
theorem WordFits.postedStoreRefusal (core entry : Nat) (code : BitVec 7) : WordFits.Statement (.postedStoreRefusal core entry code) := by intro x h; simp [encode] at h
theorem WordFits.l1Fill (core line : Nat) : WordFits.Statement (.l1Fill core line) := by intro x h; simp [encode] at h
theorem WordFits.writebackReply (wb : Nat) (code : BitVec 7) : WordFits.Statement (.writebackReply wb code) := by intro x h; simp [encode] at h
theorem WordFits.writebackRetry (core : Nat) : WordFits.Statement (.writebackRetry core) := by intro x h; simp [encode] at h
theorem WordFits.mergeWindowExpiry (cluster block : Nat) : WordFits.Statement (.mergeWindowExpiry cluster block) := by intro x h; simp [encode] at h
theorem WordFits.icacheFill (core asid line : Nat) : WordFits.Statement (.icacheFill core asid line) := by intro x h; simp [encode] at h
theorem WordFits.xfmCrc (cluster : Nat) : WordFits.Statement (.xfmCrc cluster) := by intro x h; simp [encode] at h
theorem WordFits.xfmFrc (cluster : Nat) : WordFits.Statement (.xfmFrc cluster) := by intro x h; simp [encode] at h
theorem WordFits.xfmFrd (cluster : Nat) : WordFits.Statement (.xfmFrd cluster) := by intro x h; simp [encode] at h
theorem WordFits.xfmEbc (cluster : Nat) : WordFits.Statement (.xfmEbc cluster) := by intro x h; simp [encode] at h
theorem WordFits.xfmEbd (cluster : Nat) : WordFits.Statement (.xfmEbd cluster) := by intro x h; simp [encode] at h
theorem WordFits.xfmCtb (cluster : Nat) : WordFits.Statement (.xfmCtb cluster) := by intro x h; simp [encode] at h
theorem WordFits.mldaExecute (core : Nat) : WordFits.Statement (.mldaExecute core) := by intro x h; simp [encode] at h
theorem WordFits.mldbExecute (core : Nat) : WordFits.Statement (.mldbExecute core) := by intro x h; simp [encode] at h
theorem WordFits.mm16Execute (core : Nat) : WordFits.Statement (.mm16Execute core) := by intro x h; simp [encode] at h
theorem WordFits.mzeroExecute (core : Nat) : WordFits.Statement (.mzeroExecute core) := by intro x h; simp [encode] at h
theorem WordFits.mstcExecute (core : Nat) : WordFits.Statement (.mstcExecute core) := by intro x h; simp [encode] at h
theorem WordFits.mcbtExecute (core : Nat) : WordFits.Statement (.mcbtExecute core) := by intro x h; simp [encode] at h
theorem WordFits.mjoinComplete (job gid : Nat) : WordFits.Statement (.mjoinComplete job gid) := by intro x h; simp [encode] at h
theorem WordFits.cfollowMtileStart (core : Nat) : WordFits.Statement (.cfollowMtileStart core) := by intro x h; simp [encode] at h
theorem WordFits.groupWatchdogFire (job gid : Nat) : WordFits.Statement (.groupWatchdogFire job gid) := by intro x h; simp [encode] at h
theorem WordFits.gvQueueGrant (cluster : Nat) : WordFits.Statement (.gvQueueGrant cluster) := by intro x h; simp [encode] at h
theorem WordFits.engineBoxIssue (core queue : Nat) : WordFits.Statement (.engineBoxIssue core queue) := by intro x h; simp [encode] at h
theorem WordFits.boxWrite (box : Nat) : WordFits.Statement (.boxWrite box) := by intro x h; simp [encode] at h
theorem WordFits.boxAck (box : Nat) : WordFits.Statement (.boxAck box) := by intro x h; simp [encode] at h
theorem WordFits.directedReadOwner (box : Nat) : WordFits.Statement (.directedReadOwner box) := by intro x h; simp [encode] at h
theorem WordFits.directedReadDelivery (box : Nat) : WordFits.Statement (.directedReadDelivery box) := by intro x h; simp [encode] at h
theorem WordFits.darithPacketApply (box : Nat) : WordFits.Statement (.darithPacketApply box) := by intro x h; simp [encode] at h
theorem WordFits.orderedPacketArrival (box : Nat) : WordFits.Statement (.orderedPacketArrival box) := by intro x h; simp [encode] at h
theorem WordFits.darithOpenPacket (box : Nat) : WordFits.Statement (.darithOpenPacket box) := by intro x h; simp [encode] at h
theorem WordFits.orderedPacketResend (box : Nat) : WordFits.Statement (.orderedPacketResend box) := by intro x h; simp [encode] at h
theorem WordFits.orderedHeldAck (box : Nat) : WordFits.Statement (.orderedHeldAck box) := by intro x h; simp [encode] at h
theorem WordFits.parityUpdate (update : Nat) : WordFits.Statement (.parityUpdate update) := by intro x h; simp [encode] at h
theorem WordFits.routerHop (packet : Nat) : WordFits.Statement (.routerHop packet) := by intro x h; simp [encode] at h
theorem WordFits.laneLoss (port link lane : Nat) : WordFits.Statement (.laneLoss port link lane) := by intro x h; simp [encode] at h
theorem WordFits.retrain (port link : Nat) : WordFits.Statement (.retrain port link) := by intro x h; simp [encode] at h
theorem WordFits.linkTrainingDone (port link : Nat) (live : BitVec 4) : WordFits.Statement (.linkTrainingDone port link live) := by intro x h; simp [encode] at h
theorem WordFits.flitCrcResend (port link : Nat) : WordFits.Statement (.flitCrcResend port link) := by intro x h; simp [encode] at h
theorem WordFits.flitResendLimit (port link : Nat) : WordFits.Statement (.flitResendLimit port link) := by intro x h; simp [encode] at h
theorem WordFits.fabricTimeout (packet : Nat) : WordFits.Statement (.fabricTimeout packet) := by intro x h; simp [encode] at h
theorem WordFits.rclk (xdie : Nat) (code : BitVec 2) : WordFits.Statement (.rclk xdie code) := by intro x h; simp [encode] at h
theorem WordFits.rclkApply (xdie : Nat) : WordFits.Statement (.rclkApply xdie) := by intro x h; simp [encode] at h
theorem WordFits.rclkPauseEnd (xdie : Nat) : WordFits.Statement (.rclkPauseEnd xdie) := by intro x h; simp [encode] at h
theorem WordFits.xdieLoss (xdie : Nat) : WordFits.Statement (.xdieLoss xdie) := by intro x h; simp [encode] at h
theorem WordFits.fenceListWrite (index : Nat) (value : BitVec 16) : WordFits.Statement (.fenceListWrite index value) := by intro x h; simp [encode] at h
theorem WordFits.linkWeightWrite (port link : Nat) (wovr : Bool) (weight : BitVec 4) : WordFits.Statement (.linkWeightWrite port link wovr weight) := by intro x h; simp [encode] at h
theorem WordFits.preemptionRequest (task : Nat) : WordFits.Statement (.preemptionRequest task) := by intro x h; simp [encode] at h
theorem WordFits.preemptionSave (task : Nat) : WordFits.Statement (.preemptionSave task) := by intro x h; simp [encode] at h
theorem WordFits.swapOut (task : Nat) : WordFits.Statement (.swapOut task) := by intro x h; simp [encode] at h
theorem WordFits.swapIn (task : Nat) : WordFits.Statement (.swapIn task) := by intro x h; simp [encode] at h
theorem WordFits.pairItemCompare (task slot : Nat) : WordFits.Statement (.pairItemCompare task slot) := by intro x h; simp [encode] at h
theorem WordFits.pairItemTimeout (task slot : Nat) : WordFits.Statement (.pairItemTimeout task slot) := by intro x h; simp [encode] at h
theorem WordFits.heartbeat (die : Nat) : WordFits.Statement (.heartbeat die) := by intro x h; simp [encode] at h
theorem WordFits.diagnosisOpen (cls : FaultClass) (element : Nat) : WordFits.Statement (.diagnosisOpen cls element) := by intro x h; simp [encode] at h
theorem WordFits.pairAgreement (diag : Nat) : WordFits.Statement (.pairAgreement diag) := by intro x h; simp [encode] at h
theorem WordFits.neighbourProbe (pkg element : Nat) (answered : Bool) : WordFits.Statement (.neighbourProbe pkg element answered) := by intro x h; simp [encode] at h
theorem WordFits.confirmationReply (diag : Nat) (confirm : Bool) : WordFits.Statement (.confirmationReply diag confirm) := by intro x h; simp [encode] at h
theorem WordFits.confirmationTimeout (diag : Nat) : WordFits.Statement (.confirmationTimeout diag) := by intro x h; simp [encode] at h
theorem WordFits.diagnosisRetry (diag : Nat) : WordFits.Statement (.diagnosisRetry diag) := by intro x h; simp [encode] at h
theorem WordFits.packageLossDiagnosis (pkg confirms : Nat) : WordFits.Statement (.packageLossDiagnosis pkg confirms) := by intro x h; simp [encode] at h
theorem WordFits.domainRestoreComplete (job domain : Nat) : WordFits.Statement (.domainRestoreComplete job domain) := by intro x h; simp [encode] at h
theorem WordFits.stripeGroupRebuild : WordFits.Statement .stripeGroupRebuild := by intro x h; simp [encode] at h
theorem WordFits.watchdogFire (slot : Nat) : WordFits.Statement (.watchdogFire slot) := by intro x h; simp [encode] at h
theorem WordFits.release (xdie : Nat) : WordFits.Statement (.release xdie) := by intro x h; simp [encode] at h
theorem WordFits.requeue (xdie : Nat) : WordFits.Statement (.requeue xdie) := by intro x h; simp [encode] at h
theorem WordFits.kill (xdie : Nat) : WordFits.Statement (.kill xdie) := by intro x h; simp [encode] at h
theorem WordFits.saveaddr (xdie : Nat) : WordFits.Statement (.saveaddr xdie) := by intro x h; simp [encode] at h
theorem WordFits.spareadd (xdie : Nat) : WordFits.Statement (.spareadd xdie) := by intro x h; simp [encode] at h
theorem WordFits.sparedel (xdie : Nat) : WordFits.Statement (.sparedel xdie) := by intro x h; simp [encode] at h
theorem WordFits.schedCmdReserved (xdie : Nat) : WordFits.Statement (.schedCmdReserved xdie) := by intro x h; simp [encode] at h
theorem WordFits.taskRetirement (task : Nat) : WordFits.Statement (.taskRetirement task) := by intro x h; simp [encode] at h
theorem WordFits.powerControlTick (power : Nat) (temps draws : List Nat) : WordFits.Statement (.powerControlTick power temps draws) := by intro x h; simp [encode] at h
theorem WordFits.powerGood (calfail : BitVec 16) (signatureOk firmwareOk : Bool) : WordFits.Statement (.powerGood calfail signatureOk firmwareOk) := by intro x h; simp [encode] at h
theorem WordFits.lcsChange (lcs : BitVec 2) : WordFits.Statement (.lcsChange lcs) := by intro x h; simp [encode] at h
theorem WordFits.controlRegisterWrite (die offset : Nat) (value : BitVec 64) : WordFits.Statement (.controlRegisterWrite die offset value) := by intro x h; simp [encode] at h
theorem WordFits.pairAgreementTimeout (diag : Nat) : WordFits.Statement (.pairAgreementTimeout diag) := by intro x h; simp [encode] at h
theorem WordFits.dieLoss (die : Nat) : WordFits.Statement (.dieLoss die) := by intro x h; simp [encode] at h
theorem WordFits.softError (place : ErrorPlace) (correctable : Bool) : WordFits.Statement (.softError place correctable) := by intro x h; simp [encode] at h
theorem WordFits.packagePowerRemoved : WordFits.Statement .packagePowerRemoved := by intro x h; simp [encode] at h
theorem WordFits.mtileSequencerStep (core : Nat) : WordFits.Statement (.mtileSequencerStep core) := by intro x h; simp [encode] at h
theorem WordFits.gvRowComplete (slot : Nat) : WordFits.Statement (.gvRowComplete slot) := by intro x h; simp [encode] at h
theorem WordFits.vchainGroupComplete (slot : Nat) : WordFits.Statement (.vchainGroupComplete slot) := by intro x h; simp [encode] at h

end Laws
end Sys2Proof
end

