-- ==== Sys2Proof/Machine/ControlRead.lean ====
section
/-!
DEFINITION. What the words of control space read as (00_scope R7; 04_placement Table 4-5): rw fields their last value, wo and
reserved fields zero. No step of the package reads one; a read by the host over RCL changes nothing (log entry 95).
-/
namespace Sys2Proof
namespace Machine

/-- Word `i` of a register of several words. -/
def wordOf (n i : Nat) : Nat := n / 2 ^ (64 * i) % 2 ^ 64

/-! ## Registers as numbers -/

/-- 04_placement Table 4-2. -/
def MapEntry.toNat (e : MapEntry) : Nat :=
  e.phys + e.pkg * 2 ^ 16 + boolNat e.remote * 2 ^ 29 + boolNat e.fenced * 2 ^ 30 + boolNat e.valid * 2 ^ 31

/-- 16_recovery Table 16-7. -/
def Redirect.toNat (r : Redirect) : Nat :=
  r.tphys + r.tpkg * 2 ^ 30 + r.sdie * 2 ^ 43 + r.spkg * 2 ^ 47 + boolNat r.valid * 2 ^ 63

/-- 04_placement Table 4-9. -/
def AsidCtl.toNat (a : AsidCtl) : Nat :=
  boolNat a.taskrc * 2 ^ 40 + boolNat a.owned * 2 ^ 41 + a.part * 2 ^ 42 + a.ver * 2 ^ 48

/-- 12_copy Table 12-18. -/
def EcgEntry.toNat (g : EcgEntry) : Nat :=
  g.k + g.p * 2 ^ 4 + boolNat g.valid * 2 ^ 7 + g.size * 2 ^ 8 +
    ((List.range 10).map (fun m => g.mbase.getD m 0 * 2 ^ (64 * m + 64))).sum

/-- 02_launch Table 2-1; ENADD reads zero. -/
def PartCfg.toNat (p : PartCfg) : Nat :=
  boolNat p.enable + p.diemask * 2 ^ 150 + p.qcount * 2 ^ 162 + p.share * 2 ^ 167 + p.lqsize * 2 ^ 172 + p.lqtail * 2 ^ 192 +
    p.lqhead * 2 ^ 208 + boolNat p.dberr * 2 ^ 224 + boolNat p.qerr * 2 ^ 225 + boolNat p.lqerr * 2 ^ 226 + p.lqbase * 2 ^ 256 +
    p.stagesize * 2 ^ 320 + p.stagebase * 2 ^ 384 + p.energy * 2 ^ 448

/-- 03_accord Table 3-7; STAGE reads zero. -/
def Policy.toNat (p : Policy) : Nat :=
  p.fallbacks * 2 ^ 224 + boolNat p.pending * 2 ^ 260 + boolNat p.disabled * 2 ^ 261 + boolNat p.taskswap * 2 ^ 262 +
    boolNat p.keep * 2 ^ 263 + p.stagecode * 2 ^ 268 + p.stageidx * 2 ^ 276 + p.lastidx * 2 ^ 284 + p.lastcause * 2 ^ 292 +
    p.overruns * 2 ^ 296 + p.staged * 2 ^ 312 + p.version * 2 ^ 328 + p.gslice * 2 ^ 344 + p.grace * 2 ^ 360 + p.prio * 2 ^ 376 +
    p.imglen * 2 ^ 440 + p.image * 2 ^ 448

/-- A preserve quota entry and a retirement log descriptor (16_recovery Table 16-5, 17_retire Table 17-1). -/
def Part.quotaNat (p : Part) : Nat := p.pquota + p.pused * 2 ^ 64
def Part.logNat (p : Part) : Nat := p.rlbase * 2 ^ 6 + boolNat p.rlerr * 2 ^ 107 + p.rlsize * 2 ^ 108 + p.rlhead % 65536 * 2 ^ 112

/-- 04_placement Table 4-12; GO reads zero. -/
def RangeBlock.toNat (b : RangeBlock) : Nat :=
  b.asid + b.nm1 * 2 ^ 16 + boolNat b.busy * 2 ^ 62 + b.image * 2 ^ 64 + b.status.toNat * 2 ^ 128

/-- 16_recovery Table 16-10; GO reads zero. -/
def SchedBlock.toNat (b : SchedBlock) : Nat :=
  b.cmd + boolNat b.busy * 2 ^ 7 + b.slot * 2 ^ 70 + b.part * 2 ^ 74 + b.job * 2 ^ 80 + b.taskid * 2 ^ 96 +
    b.status.toNat * 2 ^ 128 + b.arg.toNat * 2 ^ 192

/-- 17_retire Table 17-4. -/
def Power.toNat (p : Power) : Nat := p.throt * 2 ^ 16 + p.tmax % 256 * 2 ^ 24 + p.pnow % 65536 * 2 ^ 32 + p.pbudget * 2 ^ 48

/-- 17_retire Table 17-6. -/
def Status.toNat (x : Status) : Nat :=
  x.errcode * 2 ^ 8 + x.calfail * 2 ^ 16 + x.lcs * 2 ^ 57 + x.step * 2 ^ 59 + boolNat x.degraded * 2 ^ 62 + boolNat x.ready * 2 ^ 63

/-- STATE of a link status word (14_fabric Table 14-1). -/
def LinkState.num (x : LinkState) : Nat := match x with | .down => 0 | .training => 1 | .up => 2 | .paused => 3 | .notConn => 4

/-- UPTIME: microseconds since the link last entered UP, at most 65,535; 0 while it never has. -/
def Link.uptime (l : Link) (now : Nat) : Nat :=
  match l.upSince with
  | some u => min ((now - u) / 1000) 65535
  | none => 0

/-- 14_fabric Table 14-1; RETRAIN reads zero. -/
def Link.toNat (l : Link) (now : Nat) : Nat :=
  l.uptime now + l.events * 2 ^ 16 + boolNat l.wovr * 2 ^ 50 + l.weight * 2 ^ 51 + l.width * 2 ^ 55 + l.live * 2 ^ 57 +
    l.st.num * 2 ^ 61

/-- The fabric configuration word (14_fabric Table 14-2). -/
def Fabric.configNat (f : Fabric) : Nat :=
  f.rclk + f.detours * 2 ^ 2 + f.tobase * 2 ^ 16 + (f.nd - 1) * 2 ^ 38 + (f.nc - 1) * 2 ^ 43 + f.coord * 2 ^ 48

/-! ## Blocks -/

/-- A word of a C-die's or H-die's control space: the die map two entries to a word, of which 14 and 15 read zero (R73), the
redirect table, the die control word, the group table, the ASID control words, and the range tables. -/
def State.readDieBlock (s : State) (die o : Nat) : Nat :=
  let d := s.dieAt die
  if o < 0x40 then
    let e := fun (n : Nat) => if n < 14 then (s.mapAt n).toNat else 0
    e (o / 4) + e (o / 4 + 1) * 2 ^ 32
  else if 0x100 ≤ o ∧ o < 0x200 then (FMap.get {} s.fabric.redirects ((o - 0x100) / 8)).toNat
  else if o = 0x1000 then d.balint.toNat
  else if 0x2000 ≤ o ∧ o < 0xA000 then wordOf (FMap.get {} d.ecg ((o - 0x2000) / 128)).toNat (o / 8 % 16)
  else if 0x100000 ≤ o ∧ o < 0x102000 then (FMap.get {} d.asids ((o - 0x100000) / 8)).toNat
  else if 0x200000 ≤ o ∧ o < 0x400000 then wordOf (FMap.get {} d.ranges ((o - 0x200000) / 32)).toNat (o / 8 % 4)
  else 0

/-- A word of an X-die's queue block; doorbells read zero. -/
def State.readQueueBlock (s : State) (o : Nat) : Nat :=
  if 0x4000 ≤ o ∧ o < 0x5000 then wordOf (s.partAt ((o - 0x4000) / 64)).cfg.toNat (o / 8 % 8)
  else if 0x5000 ≤ o ∧ o < 0x6000 then wordOf (s.partAt ((o - 0x5000) / 64)).pol.toNat (o / 8 % 8)
  else if 0x6000 ≤ o ∧ o < 0x6400 then wordOf (s.partAt ((o - 0x6000) / 16)).quotaNat (o / 8 % 2)
  else if 0x7000 ≤ o ∧ o < 0x7400 then wordOf (s.partAt ((o - 0x7000) / 16)).logNat (o / 8 % 2)
  else 0

/-- A word of an X-die's fabric block: its own links, the configuration word, and four fence entries to a word. -/
def State.readFabricBlock (s : State) (xdie o : Nat) : Nat :=
  if o < 0x80 then (s.link (4 * (o / 16) + 2 * (xdie - 12) + o / 8 % 2)).toNat s.now
  else if o = 0x100 then s.fabric.configNat
  else if 0x200 ≤ o ∧ o < 0x280 then
    ((List.range 4).map (fun i => (FMap.get 0 s.fabric.fence ((o - 0x200) / 2 + i)).toNat * 2 ^ (16 * i))).sum
  else 0

/-- What an aligned word of control space reads as. -/
def State.readControl (s : State) (die offset : Nat) : Word :=
  let o := offset % 2 ^ 20
  BitVec.ofNat 64 (if die < 12 then s.readDieBlock die offset
    else match offset / 2 ^ 20 with
      | 0 => if o = 0 then s.pkg.status.toNat else 0
      | 1 => s.readQueueBlock o
      | 2 => wordOf (s.rangeBlock die).toNat (o / 8)
      | 3 => s.readFabricBlock die o
      | 4 => if o = 0 then s.pkg.power.toNat else if 8 ≤ o ∧ o < 0x68 then (s.dieAt (o / 8 - 1)).mhz % 65536 else 0
      | 5 => wordOf (s.schedBlock die).toNat (o / 8)
      | _ => 0)

/-- A read over RCL: until READY is set, one that is not of the status word is refused with ACCESS (17_retire R412). -/
def State.askControl (s : State) (die offset : Nat) : Except Nat Word :=
  if !s.pkg.status.ready && !((die == 12 || die == 13) && offset == 0) then .error 1 else .ok (s.readControl die offset)

end Machine
end Sys2Proof
end

