-- ==== Sys2Proof/Safety.lean ====
section
/-!
DEFINITION. What counts as a safe state of the package, and the conditions and results in terms of which statements
about instructions are made.
-/
namespace Sys2Proof
namespace Machine

/-- Memory has its canonical form: addresses strictly rising, no listed byte that equals the unlisted one. -/
def State.memoryWf (s : State) : Prop := Memory.wf s.mem = true

/-- The instruction of the current slot can issue: its sources are full and its destination is not pending
(06_scalar R139, R140). -/
def State.issues (s : State) (srcs : List (Fin 32)) (d : Fin 32) : Bool :=
  srcs.all (fun r => s.curSlot.ready r) && !s.curSlot.pending d

/-- The same for an instruction that a speculative task may not run before it is head (01_work R23). -/
def State.issuesHead (s : State) (srcs : List (Fin 32)) (d : Fin 32) : Bool :=
  s.issues srcs d && !s.speculative s.cur

/-- The same for an engine instruction that waits on the tokens of a mask: none has commands outstanding, none has
faulted (12_copy R299). -/
def State.issuesE (s : State) (srcs : List (Fin 32)) (d : Fin 32) (mask : Nat) : Bool :=
  s.issues srcs d &&
    (maskTokens mask).all (fun t => !(s.curSlot.token t).waits && (s.curSlot.token t).kind != .fault)

/-- The result of an instruction that writes one general register and retires. -/
def State.wrote (s : State) (d : Fin 32) (v : Word) : State := (s.setReg d v).retire

/-- Nothing of a slot differs but the pc, the counters of its turns, a progress index and the registers named. -/
def Slot.sameBut (x y : Slot) (rs : List (Fin 32)) : Prop :=
  (∀ q : Fin 32, q ∉ rs → y.g[q.val] = x.g[q.val]) ∧ y.bb = x.bb ∧ y.eng = x.eng ∧ y.tok = x.tok ∧ y.claim = x.claim ∧
    y.vreg = x.vreg ∧ y.bind = x.bind ∧ y.owner = x.owner ∧ y.wake = x.wake ∧ y.pend = x.pend

/-- From `s` to `t` the current slot's instruction retired and wrote `v` to `d`: g0 discards it, every other register
and every other slot stays, the next instruction stands four bytes on. -/
def State.retiredWith (s t : State) (d : Fin 32) (v : Word) : Prop :=
  t.cur = s.cur ∧ t.curSlot.pc = s.curSlot.pc + 4 ∧ t.curSlot.ready d = true ∧
    (∀ q : Fin 32, t.reg q = if q = d ∧ d ≠ 0 then v else s.reg q) ∧ s.curSlot.sameBut t.curSlot [d] ∧
    ∀ k, k ≠ s.cur → t.slotAt k = s.slotAt k

/-- Every byte of memory outside `n` bytes at `a` reads in `t` as in `s`. -/
def State.memOutside (s t : State) (a n : Nat) : Prop :=
  ∀ c, (c < a ∨ a + n ≤ c) → Memory.read t.mem c = Memory.read s.mem c

/-- Every byte of memory reads in `t` as in `s`. -/
def State.memSame (s t : State) : Prop := ∀ c, Memory.read t.mem c = Memory.read s.mem c

/-- No task is speculative in the current slot, nothing of it is buffered, and it is no copy of a checked pair: its
accesses take the plain routes. -/
def State.plain (s : State) : Bool :=
  !s.speculative s.cur && (s.coreAt (coreOfSlot s.cur)).spec.isEmpty && !s.curSlot.who.secondary &&
    !(s.slotTask s.cur).paired

/-- Nothing stands in the way of an access of `w` bytes at `v`, which lie at `spa`: no posted store of the slot, no
cached copy of its lines and no write-back of one (08_memory_ops R187, R188). -/
def State.clearFor (s : State) (v : Word) (spa w : Nat) : Bool :=
  !s.journalBlocks s.cur v.toNat w &&
    [spa / 32, (spa + w - 1) / 32].all (fun l =>
      ((s.coreAt (coreOfSlot s.cur)).findL l).isNone && !s.wbInFlight (coreOfSlot s.cur) l)

/-- The SPA of an access of `w` bytes at `v` that passes every check and whose target a test accepts, with nothing in
its way. -/
def State.reaches (s : State) (v : Word) (w : Nat) (need : Need) (ok : Home → Bool) : Option Nat :=
  match s.checkAccess s.cur v w need with
  | .error _ => none
  | .ok (_, spa) => if ok (s.home spa) && s.clearFor v spa w then some spa else none

/-- The local address of an access of `w` bytes at `v` by the current slot to its core's own local memory, where every
check passes and nothing stands in its way: no decoded range, no uncorrectable word, no access that waits there
(08_memory_ops R187 to R189, R200, R201). -/
def State.ownWord (s : State) (v : Word) (w : Nat) (need : Need) : Option Nat :=
  match s.checkAccess s.cur v w need with
  | .error _ => none
  | .ok (e, spa) =>
    let h := s.home spa
    if h.own s.cur .lm && h.die == dieOfSlot s.cur && s.plain && !e.decoded && !s.isBad h.key w && s.clearFor v spa w &&
        (s.twinKey h.key).isNone && s.msgs.all (fun m => m.st != .waiting)
    then some h.key else none

/-- The same for a synchronisation object within a scope (13_consistency R331). -/
def State.ownObject (s : State) (v : Word) (scope : Nat) (need : Need) : Option Nat :=
  match s.checkAccess s.cur v 8 need with
  | .error _ => none
  | .ok (_, spa) => if s.inScope s.cur scope spa (s.home spa) then s.ownWord v 8 need else none

/-- No core of the package holds a dirty line, and none is being written back. -/
def State.allClean (s : State) : Bool := s.cores.all (fun c => c.2.l1.all (fun l => !l.isDirty)) && s.wbs.isEmpty

/-- From `s` to `t` the current slot has sent one message of a kind, which stands at the end of the messages and whose
next step is due. -/
def State.sends (s t : State) (kind : MsgKind) (v : Word) (spa w : Nat) (data : Word) (d : Fin 32) : Prop :=
  ∃ m : Msg, t.msgs = s.msgs ++ [m] ∧ m.id = s.nextId ∧ m.kind = kind ∧ m.va = v ∧ m.spa = spa ∧ m.width = w ∧
    m.data = data ∧ m.reg = d ∧ m.slot = s.cur ∧ m.who = s.curSlot.who ∧ m.st = .sent ∧ ∃ e, t.agenda = s.agenda ++ [e]

/-- From `s` to `t` the current slot's instruction has issued and is held. -/
def State.heldOn (s t : State) (h : Hold) : Prop :=
  t.cur = s.cur ∧ t.curSlot.hold = some h ∧ t.curSlot.pc = s.curSlot.pc ∧ t.curSlot.g = s.curSlot.g ∧
    t.curSlot.csr = s.curSlot.csr ∧ ∀ k, k ≠ s.cur → t.slotAt k = s.slotAt k

/-- A matrix command of the current slot passes its conditions of issue: sources full and tokens done, the context owned,
the queue running with a free entry, and a token that can count (10_matrix R253, R256). -/
def State.takesMatrix (s : State) (srcs : List (Fin 32)) (k : Fin 8) (mask : Nat) : Bool :=
  let m := (s.coreAt (coreOfSlot s.cur)).mat
  s.issuesE srcs 0 mask && s.ownsMatrix s.cur && !m.halted && decide (s.matUse (coreOfSlot s.cur) < 16) &&
    decide ((s.curSlot.token k).count < 255)

/-- From `s` to `t` the current slot's instruction retired and its command stands at the end of the matrix queue with what
it read; its token counts one more. -/
def State.entered (s t : State) (k : Fin 8) (fn : Nat) (a b : Word) : Prop :=
  let c := coreOfSlot s.cur
  t.cur = s.cur ∧ t.curSlot.pc = s.curSlot.pc + 4 ∧ t.curSlot.g = s.curSlot.g ∧ t.curSlot.csr = s.curSlot.csr ∧
    (t.curSlot.token k).count = (s.curSlot.token k).count + 1 ∧ s.memSame t ∧
    (∃ x : MatCmd, (t.coreAt c).mat.queue = (s.coreAt c).mat.queue ++ [x] ∧ x.id = s.nextId ∧ x.fn = fn ∧
      x.who = s.curSlot.who ∧ x.token = k.val ∧ x.ra = a ∧ x.rb = b ∧ x.cfg = s.issueCfg ∧
      x.regs = (s.coreAt c).mat.e ∧ x.join = none) ∧
    ∀ q, q ≠ c → t.coreAt q = s.coreAt q

/-- A matrix command is due: it stands at the head of its running queue, its task's translations are not being replaced,
and its task has not ended (10_matrix R257). -/
def State.matDue (s : State) (core : Nat) (x : MatCmd) : Prop :=
  (s.coreAt core).mat.queue.head? = some x ∧ x.join = none ∧ (s.coreAt core).mat.halted = false ∧
    s.translationHeld (s.taskAt x.who.task).asid = false ∧ (s.taskAt x.who.task).st ≠ .done

/-- From `s` to `t` a matrix command has completed: it has left the queue and its slot's token counts one less. -/
def State.matLeft (s t : State) (core : Nat) (x : MatCmd) : Prop :=
  (t.coreAt core).mat.queue = (s.coreAt core).mat.queue.filter (fun y => y.id != x.id || y.join.isSome) ∧
    ∀ k, s.copiesOf x.who = [k] →
      ((t.slotAt k).token (tokenFin x.token)).count = ((s.slotAt k).token (tokenFin x.token)).count - 1

/-- The copy command that the current slot describes (12_copy R295, R303). -/
def State.copyCmd (s : State) (k : Fin 8) (fn : Nat) (a b : Word) : Cmd :=
  { id := s.nextId, who := s.curSlot.who, core := coreOfSlot s.cur, asid := s.asidOf s.cur, fn := fn, token := k.val,
    queue := s.engNat 42 % 8, ra := a, rb := b, eng := (engRead fn).map (fun n => (n, FMap.get 0 s.curSlot.eng n)),
    stores := s.storesOf s.curSlot.who }

/-- A copy command passes its checks and finds room: in its queue, among the slot's commands, and in its token's count
(12_copy R295, R297, R305). -/
def State.takesCopy (s : State) (c : Cmd) : Bool :=
  c.fault (s.ownsMatrix s.cur) == 0 && decide (s.copyUse c.core c.queue < 16) &&
    decide (s.cmds.countP (fun y => y.who == c.who) < 16) && decide ((s.curSlot.token (tokenFin c.token)).count < 255)

/-- From `s` to `t` the current slot's instruction retired and its copy command stands at the end of its queue, whose
engine is to look at it. -/
def State.copies (s t : State) (c : Cmd) : Prop :=
  t.cur = s.cur ∧ t.curSlot.pc = s.curSlot.pc + 4 ∧ t.curSlot.g = s.curSlot.g ∧ t.curSlot.csr = s.curSlot.csr ∧
    (t.curSlot.token (tokenFin c.token)).count = (s.curSlot.token (tokenFin c.token)).count + 1 ∧ s.memSame t ∧
    (∃ w, t.cmds = s.cmds ++ [{ c with nbox := c.perItem, waits := w }] ∧ (c.onCons = false → w = [])) ∧
    FMap.get [] (t.coreAt c.core).queues c.queue = FMap.get [] (s.coreAt c.core).queues c.queue ++ [.cmd c.id] ∧
    t.agenda = s.agenda ++ [.engineBoxIssue c.core c.queue]

/-- Nothing stands in the way of writing a piece: its home is here, nothing of it is lost or busy, and no refusal meets it. -/
def State.landsOn (s : State) (asid : Nat) (p : Piece) : Bool :=
  !s.pieceWaits true p && s.pieceCode asid true p == 0

/-- The next block of the request at the head of a transform port is due (09_vector R237; 13_consistency R339). -/
def State.portDue (s : State) (q : Nat) (r : XfmReq) (f : Nat) : Prop :=
  (s.clusterAt q).xfm.head? = some r ∧ xfFunc r.desc = f ∧ (r.next = 0 → r.after.any s.joinOpen = false) ∧
    s.translationHeld r.asid = false

/-- What follows a block that leaves the state `y` with `esc` bytes of the escape region used: after the last one the
request ends with a result, before that its next block is due some time later (09_vector R239). -/
def State.portGoesOn (o : Out) (q : Nat) (r : XfmReq) (y : State) (esc result : Nat) : Prop :=
  (xfCount r.desc = r.next + 1 → o = .next (y.endRequest q r (.done result))) ∧
    (r.next + 1 < xfCount r.desc → ∃ w, o = .next ((y.modCluster q (fun c => { c with xfm := c.xfm.map (fun (x : XfmReq) =>
      if x.id = r.id then { x with next := r.next + 1, esc := esc } else x) })).after w (xfEvent (xfFunc r.desc) q)))

/-- From `s` to `t` the current slot's instruction retired with register `b` pending, and the value `v` for it is on its
way: a reply that marks no trap (06_scalar R141). -/
def State.marks (s t : State) (b : Fin 32) (v : Word) : Prop :=
  t.cur = s.cur ∧ t.curSlot.pc = s.curSlot.pc + 4 ∧ (∀ g, t.reg g = s.reg g) ∧ s.memSame t ∧
    (b = 0 → t.msgs = s.msgs) ∧
    (b ≠ 0 → t.curSlot.pending b = true ∧
      ∃ m : Msg, t.msgs = s.msgs ++ [m] ∧ m.reg = b ∧ m.marking = true ∧ m.who = s.curSlot.who ∧ m.st = .replied v 0)

/-- A floating result with its flags, none of them enabled, is written to `d`, and the flags join fcsr (07_numbers R171). -/
def State.floatsTo (s : State) (o : Out) (d : Fin 32) (r : Nat × Nat) : Prop :=
  s.curSlot.enabledFlags r.2 = 0 →
    ∃ x, o = .next x ∧ s.retiredWith x d (BitVec.ofNat 64 r.1) ∧ s.memSame x ∧
      x.curSlot.csr = { s.curSlot.csr with fcsr := s.curSlot.csr.fcsr ||| BitVec.ofNat 64 (8 * r.2) }

/-- An instruction on the first VL elements of a type, whose flags are none of them enabled: element `i` of vector register
`d` becomes `f i`, every other lane of every vector register stays, as do the general registers and memory (09_vector
R219, R223). -/
def State.lanewise (s : State) (o : Out) (d t : Nat) (f : Nat → Nat × Nat) : Prop :=
  let fl := (List.range s.curSlot.vl).foldl (fun n i => n ||| (f i).2) 0
  s.curSlot.enabledFlags fl = 0 →
    ∃ x, o = .next x ∧ x.cur = s.cur ∧ x.curSlot.pc = s.curSlot.pc + 4 ∧ x.curSlot.g = s.curSlot.g ∧ s.memSame x ∧
      x.curSlot.csr = { s.curSlot.csr with fcsr := s.curSlot.csr.fcsr ||| BitVec.ofNat 64 (8 * fl) } ∧
      (∀ i, i < s.curSlot.vl → x.curSlot.velem t d i = (f i).1 % 2 ^ vbits t) ∧
      (∀ v j, j < 128 → (v ≠ d ∨ s.curSlot.vl * (if t = 1 then 2 else 1) ≤ j) →
        x.curSlot.lane v j = s.curSlot.lane v j)

/-- A message comes to its home: it is on its way, and the home lies in this package on a die that serves (08_memory_ops
R187; 16_recovery R404). -/
def State.arrives (s : State) (msg : Nat) (m : Msg) : Prop :=
  s.findMsg msg = some m ∧ m.st = .sent ∧ (s.home m.spa).outside = false ∧ s.dieCode (s.home m.spa).die = 0 ∧
    (s.dieAt (s.home m.spa).die).lost = false

end Machine
end Sys2Proof
end

