-- ==== Sys2Proof/Certificates/Slice0/Obligations.lean ====
section
/-!
DEFINITION. The statements about the model: what instructions do, what a step does, and what every step keeps.
-/
open Sys2Proof Sys2Proof.Machine

/-- The two-source OP instructions write the result of Table 6-3 and retire. 06_scalar: Integer instructions. -/
def Obligations.IntegerBinaryResults : Prop :=
  ∀ (s : State) (d a b : Fin 32) (t u : Bool), s.issues [a, b] d = true →
    exec (.add d a b t u) s = .next (s.wrote d (s.reg a + s.reg b)) ∧
    exec (.sub d a b t u) s = .next (s.wrote d (s.reg a - s.reg b)) ∧
    exec (.mul d a b t u) s = .next (s.wrote d (s.reg a * s.reg b)) ∧
    exec (.mulh d a b t u) s = .next (s.wrote d (BitVec.ofInt 64 ((s.reg a).toInt * (s.reg b).toInt / 2 ^ 64))) ∧
    exec (.mulhu d a b t u) s = .next (s.wrote d (BitVec.ofNat 64 ((s.reg a).toNat * (s.reg b).toNat / 2 ^ 64))) ∧
    exec (.and d a b t u) s = .next (s.wrote d (s.reg a &&& s.reg b)) ∧
    exec (.or d a b t u) s = .next (s.wrote d (s.reg a ||| s.reg b)) ∧
    exec (.xor d a b t u) s = .next (s.wrote d (s.reg a ^^^ s.reg b)) ∧
    exec (.andn d a b t u) s = .next (s.wrote d (s.reg a &&& ~~~ s.reg b)) ∧
    exec (.sll d a b t u) s = .next (s.wrote d (s.reg a <<< ((s.reg b).toNat % 64))) ∧
    exec (.srl d a b t u) s = .next (s.wrote d (s.reg a >>> ((s.reg b).toNat % 64))) ∧
    exec (.sra d a b t u) s = .next (s.wrote d ((s.reg a).sshiftRight ((s.reg b).toNat % 64))) ∧
    exec (.ror d a b t u) s = .next (s.wrote d ((s.reg a).rotateRight ((s.reg b).toNat % 64))) ∧
    exec (.min d a b t u) s = .next (s.wrote d (if (s.reg a).toInt < (s.reg b).toInt then s.reg a else s.reg b)) ∧
    exec (.max d a b t u) s = .next (s.wrote d (if (s.reg a).toInt < (s.reg b).toInt then s.reg b else s.reg a)) ∧
    exec (.minu d a b t u) s = .next (s.wrote d (if s.reg a < s.reg b then s.reg a else s.reg b)) ∧
    exec (.maxu d a b t u) s = .next (s.wrote d (if s.reg a < s.reg b then s.reg b else s.reg a)) ∧
    exec (.slt d a b t u) s = .next (s.wrote d (if (s.reg a).toInt < (s.reg b).toInt then 1 else 0)) ∧
    exec (.sltu d a b t u) s = .next (s.wrote d (if s.reg a < s.reg b then 1 else 0)) ∧
    exec (.seq d a b t u) s = .next (s.wrote d (if s.reg a = s.reg b then 1 else 0)) ∧
    (s.issues [d] d = true →
      exec (.sel d a b t u) s = .next (s.wrote d (if s.reg d ≠ 0 then s.reg a else s.reg b)))

/-- CLZ, CTZ, POPC, BREV and BSWAP give the counts and the reversed bits and bytes of Table 6-3. 06_scalar: Integer
instructions. -/
def Obligations.BitCountsAndReversals : Prop :=
  ∀ (s : State) (d a : Fin 32) (t : Bool), s.issues [a] d = true →
    (∃ n : Nat, exec (.clz d a t) s = .next (s.wrote d (BitVec.ofNat 64 n)) ∧ (s.reg a = 0 → n = 64) ∧
      (s.reg a ≠ 0 → n < 64 ∧ 2 ^ (63 - n) ≤ (s.reg a).toNat ∧ (s.reg a).toNat < 2 ^ (64 - n))) ∧
    (∃ n : Nat, exec (.ctz d a t) s = .next (s.wrote d (BitVec.ofNat 64 n)) ∧ (s.reg a = 0 → n = 64) ∧
      (s.reg a ≠ 0 → n < 64 ∧ (s.reg a).getLsbD n = true ∧ ∀ i, i < n → (s.reg a).getLsbD i = false)) ∧
    exec (.popc d a t) s =
      .next (s.wrote d (BitVec.ofNat 64 ((List.range 64).countP (fun i => (s.reg a).getLsbD i)))) ∧
    (∃ v : Word, exec (.brev d a t) s = .next (s.wrote d v) ∧
      ∀ i, i < 64 → v.getLsbD i = (s.reg a).getLsbD (63 - i)) ∧
    (∃ v : Word, exec (.bswap d a t) s = .next (s.wrote d v) ∧
      ∀ i, i < 64 → v.getLsbD i = (s.reg a).getLsbD (8 * (7 - i / 8) + i % 8))

/-- DIV, DIVU, REM and REMU write the results of R144; a zero divisor traps with IDZE set. R144. -/
def Obligations.DivisionResults : Prop :=
  ∀ (s : State) (d a b : Fin 32) (t u : Bool), s.issues [a, b] d = true →
    (s.reg b = 0 → s.curSlot.csr.tstat.getLsbD 1 = true →
      exec (.div d a b t u) s = .next (s.trap 0x05 0) ∧ exec (.divu d a b t u) s = .next (s.trap 0x05 0) ∧
      exec (.rem d a b t u) s = .next (s.trap 0x05 0) ∧ exec (.remu d a b t u) s = .next (s.trap 0x05 0) ∧
      ∀ q : Fin 32, (s.trap 0x05 0).reg q = s.reg q) ∧
    (s.reg b = 0 → s.curSlot.csr.tstat.getLsbD 1 = false →
      exec (.div d a b t u) s = .next (s.wrote d 0xFFFFFFFFFFFFFFFF) ∧
      exec (.divu d a b t u) s = .next (s.wrote d 0xFFFFFFFFFFFFFFFF) ∧
      exec (.rem d a b t u) s = .next (s.wrote d (s.reg a)) ∧
      exec (.remu d a b t u) s = .next (s.wrote d (s.reg a))) ∧
    (s.reg b ≠ 0 →
      exec (.div d a b t u) s = .next (s.wrote d (
        if (s.reg a).toInt = -2 ^ 63 ∧ (s.reg b).toInt = -1 then s.reg a
        else BitVec.ofInt 64 ((s.reg a).toInt.tdiv (s.reg b).toInt))) ∧
      exec (.divu d a b t u) s = .next (s.wrote d (BitVec.ofNat 64 ((s.reg a).toNat / (s.reg b).toNat))) ∧
      exec (.rem d a b t u) s = .next (s.wrote d (
        if (s.reg a).toInt = -2 ^ 63 ∧ (s.reg b).toInt = -1 then 0
        else BitVec.ofInt 64 ((s.reg a).toInt - (s.reg b).toInt * (s.reg a).toInt.tdiv (s.reg b).toInt))) ∧
      exec (.remu d a b t u) s = .next (s.wrote d (BitVec.ofNat 64 ((s.reg a).toNat % (s.reg b).toNat))))

/-- The OPI instructions, LHI and APC write their results with the immediate sign-extended. 06_scalar: Integer
instructions, 06_scalar: Constants and bit fields. -/
def Obligations.ImmediateResults : Prop :=
  (∀ (s : State) (d a : Fin 32) (t : Bool) (i : Fin 2048) (n : Fin 64), s.issues [a] d = true →
    exec (.addi d a t i) s = .next (s.wrote d (s.reg a + (BitVec.ofNat 11 i.val).signExtend 64)) ∧
    exec (.andi d a t i) s = .next (s.wrote d (s.reg a &&& (BitVec.ofNat 11 i.val).signExtend 64)) ∧
    exec (.ori d a t i) s = .next (s.wrote d (s.reg a ||| (BitVec.ofNat 11 i.val).signExtend 64)) ∧
    exec (.xori d a t i) s = .next (s.wrote d (s.reg a ^^^ (BitVec.ofNat 11 i.val).signExtend 64)) ∧
    exec (.slti d a t i) s = .next (s.wrote d
      (if (s.reg a).toInt < ((BitVec.ofNat 11 i.val).signExtend 64).toInt then 1 else 0)) ∧
    exec (.sltiu d a t i) s = .next (s.wrote d (if s.reg a < (BitVec.ofNat 11 i.val).signExtend 64 then 1 else 0)) ∧
    exec (.slli d a t n) s = .next (s.wrote d (s.reg a <<< n.val)) ∧
    exec (.srli d a t n) s = .next (s.wrote d (s.reg a >>> n.val)) ∧
    exec (.srai d a t n) s = .next (s.wrote d ((s.reg a).sshiftRight n.val))) ∧
  (∀ (s : State) (d : Fin 32) (i : Fin 2097152), s.issues [] d = true →
    exec (.lhi d i) s = .next (s.wrote d ((BitVec.ofNat 21 i.val).signExtend 64 <<< 11)) ∧
    exec (.apc d i) s = .next (s.wrote d (s.curSlot.pc + (BitVec.ofNat 21 i.val).signExtend 64 <<< 11)))

/-- BFX, BFXS and BFI extract, sign-extend and insert the field of R147 bit by bit. 06_scalar: Constants and bit
fields. -/
def Obligations.BitFieldResults : Prop :=
  ∀ (s : State) (d a : Fin 32) (t : Bool) (w p : Fin 64), w.val + 1 + p.val ≤ 64 → s.issues [a] d = true →
    (∃ v : Word, exec (.bfx d a t w p) s = .next (s.wrote d v) ∧
      ∀ i, i < 64 → v.getLsbD i = (decide (i ≤ w.val) && (s.reg a).getLsbD (p.val + i))) ∧
    (∃ v : Word, exec (.bfxs d a t w p) s = .next (s.wrote d v) ∧
      ∀ i, i < 64 → v.getLsbD i = (s.reg a).getLsbD (p.val + min i w.val)) ∧
    (s.issues [d] d = true →
      ∃ v : Word, exec (.bfi d a t w p) s = .next (s.wrote d v) ∧
        ∀ i, i < 64 → v.getLsbD i =
          if p.val ≤ i ∧ i ≤ p.val + w.val then (s.reg a).getLsbD (i - p.val) else (s.reg d).getLsbD i)

/-- A source that is not full traps with its trap bit set and else makes the slot lose its turn. 06_scalar: Full,
empty and pending registers. -/
def Obligations.EmptyRegisterTraps : Prop :=
  (∀ (s : State) (d a b : Fin 32) (u : Bool), s.curSlot.ready a = false →
    exec (.add d a b true u) s = .next (s.trap 0x04 (BitVec.ofNat 64 a.val)) ∧
    exec (.fadd d a b true u 0 0) s = .next (s.trap 0x04 (BitVec.ofNat 64 a.val)) ∧
    exec (.rst a b true u 0) s = .next (s.trap 0x04 (BitVec.ofNat 64 a.val))) ∧
  (∀ (s : State) (d a : Fin 32) (i : Fin 4096), s.curSlot.ready a = false →
    exec (.ld d a true i) s = .next (s.trap 0x04 (BitVec.ofNat 64 a.val)) ∧
    exec (.ld d a false i) s = .next s.bubble) ∧
  (∀ (s : State) (d a b : Fin 32) (t u : Bool), s.curSlot.pending d = true → s.issues [a, b] 0 = true →
    exec (.add d a b t u) s = .next s.bubble) ∧
  (∀ (s : State) (a b : Fin 32) (o : Fin 65536), s.curSlot.ready b = false → exec (.beq a b o) s = .next s.bubble)

/-- Branches and jumps go to the checked target, link, fall through, or trap at a bad target. 06_scalar: Branches and
jumps, 05_encoding: Fetch and branch targets. -/
def Obligations.BranchesJumpsAndTargets : Prop :=
  ((∀ (s : State) (a b : Fin 32) (o : Fin 65536), s.issues [a, b] 0 = true →
    let v := s.curSlot.pc + (BitVec.ofNat 16 o.val).signExtend 64 * 4;
    let go := fun (taken : Bool) => match taken, s.checkTarget s.cur v with
      | false, _ => s.retire
      | true, none => s.goTo v
      | true, some f => s.trap f.cause f.val
    exec (.beq a b o) s = .next (go (s.reg a == s.reg b)) ∧
    exec (.bne a b o) s = .next (go (s.reg a != s.reg b)) ∧
    exec (.blt a b o) s = .next (go (decide ((s.reg a).toInt < (s.reg b).toInt))) ∧
    exec (.bge a b o) s = .next (go (decide ((s.reg b).toInt ≤ (s.reg a).toInt))) ∧
    exec (.bltu a b o) s = .next (go (decide (s.reg a < s.reg b))) ∧
    exec (.bgeu a b o) s = .next (go (decide (s.reg b ≤ s.reg a)))) ∧
  (∀ (s : State) (d : Fin 32) (o : Fin 2097152), s.issues [] d = true →
    let v := s.curSlot.pc + (BitVec.ofNat 21 o.val).signExtend 64 * 4;
    exec (.jal d o) s = .next (match s.checkTarget s.cur v with
      | none => (s.setReg d (s.curSlot.pc + 4)).goTo v
      | some f => s.trap f.cause f.val)) ∧
  (∀ (s : State) (d a : Fin 32) (t : Bool) (i : Fin 2048), s.issues [a] d = true →
    let v := s.reg a + (BitVec.ofNat 11 i.val).signExtend 64;
    exec (.jalr d a t i) s = .next (match s.checkTarget s.cur v with
      | none => (s.setReg d (s.curSlot.pc + 4)).goTo v
      | some f => s.trap f.cause f.val)) ∧
  (∀ (s : State) (v : Word), (s.goTo v).curSlot.pc = v ∧ ∀ q : Fin 32, (s.goTo v).reg q = s.reg q)) ∧
  (∀ (s : State) (k : Nat) (v : Word),
    (v.toNat % 4 ≠ 0 → s.checkTarget k v = some ⟨0x03, v⟩) ∧
    (v.toNat % 4 = 0 →
      ((s.slotTask k).decl.codebase ≤ v.toNat ∧
          v.toNat < (s.slotTask k).decl.codebase + 256 * (s.slotTask k).decl.codelen ∧
          (∃ e a, s.translate (dieOfSlot k) (s.slotTask k).asid v.toNat 4 = some (e, a) ∧ e.x = true) →
        s.checkTarget k v = none) ∧
      (¬ ((s.slotTask k).decl.codebase ≤ v.toNat ∧
          v.toNat < (s.slotTask k).decl.codebase + 256 * (s.slotTask k).decl.codelen ∧
          (∃ e a, s.translate (dieOfSlot k) (s.slotTask k).asid v.toNat 4 = some (e, a) ∧ e.x = true)) →
        s.checkTarget k v = some ⟨0x02, v⟩)))

/-- CSRR, CSRW, YIELD, HALT and EMPTY have the effects of R142 and R154 to R156. 06_scalar: System instructions,
06_scalar: Control and status registers. -/
def Obligations.SystemInstructions : Prop :=
  (∀ (s : State) (d : Fin 32) (c : Fin 4096), s.issues [] d = true →
    exec (.csrr d c) s = .next (s.wrote d (s.csrRead s.cur c.val))) ∧
  (∀ (s : State) (d a : Fin 32), s.issues [a] d = true →
    exec (.csrw d a 0x000) s = .next ((s.modCur (fun x => { x with csr := { x.csr with
      fcsr := BitVec.ofNat 64 (2 ^ 40 + (s.reg a).toNat % 2 ^ 13 / 8 * 8 +
        if (s.reg a).toNat % 8 < 6 then (s.reg a).toNat % 8 else 0) } })).wrote d s.curSlot.csr.fcsr) ∧
    exec (.csrw d a 0x001) s = .next ((s.modCur (fun x => { x with csr := { x.csr with
      tstat := (x.csr.tstat &&& 1) ||| (s.reg a &&& 2) } })).wrote d s.curSlot.csr.tstat) ∧
    exec (.csrw d a 0x002) s = .next
      ((s.modCur (fun x => { x with csr := { x.csr with tvec := s.reg a } })).wrote d s.curSlot.csr.tvec) ∧
    exec (.csrw d a 0x003) s = .next
      ((s.modCur (fun x => { x with csr := { x.csr with tcause := s.reg a } })).wrote d s.curSlot.csr.tcause) ∧
    exec (.csrw d a 0x004) s = .next
      ((s.modCur (fun x => { x with csr := { x.csr with tpc := s.reg a } })).wrote d s.curSlot.csr.tpc) ∧
    exec (.csrw d a 0x005) s = .next
      ((s.modCur (fun x => { x with csr := { x.csr with tval := s.reg a } })).wrote d s.curSlot.csr.tval) ∧
    exec (.csrw d a 0x007) s = .next
      ((s.modCur (fun x => { x with csr := { x.csr with tscratch := s.reg a } })).wrote d s.curSlot.csr.tscratch) ∧
    (FMap.find (s.coreAt (coreOfSlot s.cur)).journal (s.curSlot.csr.tjrn.toNat / 2 ^ 10 % 64) = none →
      exec (.csrw d a 0x006) s = .next
        ((s.modCur (fun x => { x with csr := { x.csr with tjrn := s.reg a } })).wrote d s.curSlot.csr.tjrn)) ∧
    (∀ c : Fin 4096, 0x010 ≤ c.val →
      exec (.csrw d a c) s = .next (s.wrote d (s.csrRead s.cur c.val)))) ∧
  (∀ (s : State) (n : Fin 4096), s.issues [] 0 = true →
    exec (.yield n) s = .next (s.retire.modCur (fun x => { x with yielding := n.val })) ∧
    (s.curSlot.wake = true → exec .halt s = .next (s.retire.modCur (fun x => { x with wake := false }))) ∧
    (s.curSlot.wake = false → exec .halt s = .next (s.modCur (fun x => x.hang .halt)))) ∧
  (∀ (s : State) (d n : Fin 32), d ≠ 0 → d.val + n.val + 1 ≤ 32 →
    (∀ r : Fin 32, d ≤ r → r.val ≤ d.val + n.val → s.curSlot.pending r = false) →
    ∃ t : State, exec (.empty d n) s = .next t ∧ t.curSlot.pc = s.curSlot.pc + 4 ∧
      ∀ r : Fin 32, t.reg r = s.reg r ∧
        t.curSlot.ready r = (s.curSlot.ready r && !(decide (d ≤ r) && decide (r.val ≤ d.val + n.val))))

/-- SVC retires and then traps, or waits while speculative; BRK traps without retiring. R152. -/
def Obligations.ServiceAndBreakpoint : Prop :=
  ∀ (s : State) (n : Fin 4096),
    (s.issues [] 0 = true → s.speculative s.cur = false →
      exec (.svc n) s = .next ((s.modCur Slot.noteIssue).enterTrap s.cur 0x06 false (s.curSlot.pc + 4)
        (BitVec.ofNat 64 n.val)) ∧
      ∃ t : State, exec (.svc n) s = .next t ∧ (t.slotAt s.cur).csr.tpc = s.curSlot.pc + 4 ∧
        (t.slotAt s.cur).csr.tval = BitVec.ofNat 64 n.val) ∧
    (s.issues [] 0 = true → s.speculative s.cur = true → exec (.svc n) s = .next s.pause) ∧
    (s.issues [] 0 = true →
      ∃ t : State, exec (.brk n) s = .next t ∧ t = s.trap 0x07 (BitVec.ofNat 64 n.val) ∧
        (t.slotAt s.cur).csr.tpc = s.curSlot.pc ∧ (t.slotAt s.cur).csr.tval = BitVec.ofNat 64 n.val)

/-- ERET goes to tpc and clears INTRAP; outside a handler it is an illegal instruction. R153. -/
def Obligations.ReturnFromTrap : Prop :=
  ∀ s : State,
    (s.curSlot.intrap = false → exec .eret s = .next (s.trap 0x01 0xC0002000)) ∧
    (s.curSlot.intrap = true →
      (s.checkTarget s.cur s.curSlot.csr.tpc = none →
        exec .eret s = .next ((s.goTo s.curSlot.csr.tpc).modCur (fun x =>
          { x with csr := { x.csr with tstat := x.csr.tstat &&& ~~~ 1 } }))) ∧
      (∀ f, s.checkTarget s.cur s.curSlot.csr.tpc = some f →
        ∃ t : State, exec .eret s = .next t ∧ t = s.trap f.cause f.val ∧ (t.slotAt s.cur).intrap = true))

/-- A precise trap with a handler saves pc, cause and value, sets INTRAP and goes on at tvec. 15_interrupts: Trap
causes and entry. -/
def Obligations.TrapEntryAtHandler : Prop :=
  ∀ (s : State) (cause : Nat) (v : Word), s.curSlot.intrap = false → s.curSlot.csr.tvec ≠ 0 → cause < 2 ^ 63 →
    ∃ x : Slot, s.trap cause v = s.setSlot s.cur x ∧ x.pc = s.curSlot.csr.tvec ∧ x.csr.tpc = s.curSlot.pc ∧
      x.csr.tval = v ∧ x.csr.tcause = BitVec.ofNat 64 cause ∧ x.intrap = true ∧ x.hold = none ∧
      x.csr.tstat.getLsbD 1 = s.curSlot.csr.tstat.getLsbD 1 ∧
      x.csr.tvec = s.curSlot.csr.tvec ∧ x.csr.fcsr = s.curSlot.csr.fcsr ∧ x.csr.tscratch = s.curSlot.csr.tscratch ∧
      x.g = s.curSlot.g

/-- A trap that finds no handler stops its task: parked on SVC and BRK, else parked ROLLED-BACK. 15_interrupts: Trap
causes and entry. -/
def Obligations.TrapWithoutHandler : Prop :=
  ∀ (s : State) (cause : Nat) (v : Word) (b : Binding) (t : Task), s.curSlot.bind = some b →
    s.findTask b.task = some t → s.curSlot.intrap = true ∨ s.curSlot.csr.tvec = 0 →
    ((s.trap cause v).slotAt s.cur).stopped = true ∧ ((s.trap cause v).slotAt s.cur).csr.tpc = s.curSlot.pc ∧
      ((s.trap cause v).slotAt s.cur).csr.tval = v ∧ (s.trap cause v).agenda = s.agenda ∧
      (s.trap cause v).timers = (if s.timers.any (fun k => k.ev == .preemptionSave b.task) then s.timers
        else s.timers ++ [⟨s.now + acNs 16, .preemptionSave b.task⟩]) ∧
      (∃ t', (s.trap cause v).findTask b.task = some t' ∧
        t'.saving = some (SaveEnd.join t.saving
          (if s.curSlot.intrap = false ∧ (cause = 6 ∨ cause = 7) then .park else .parkRolledBack))) ∧
      s.memSame (s.trap cause v)

/-- Plain loads from the own local memory give the little-endian bytes, extended, and retire. 08_memory_ops: Loads and
stores. -/
def Obligations.LoadsFromOwnLocalMemory : Prop :=
  ∀ (s : State) (d a : Fin 32) (t : Bool) (i : Fin 4096), s.issues [a] d = true →
      (∀ key, s.ownWord (s.reg a + (BitVec.ofNat 12 i.val).signExtend 64) 1 .read = some key →
        ∃ x, exec (.lb d a t i) s = .next x ∧ s.retiredWith x d (BitVec.ofNat 64 (s.loadNat key 1)) ∧ s.memSame x ∧ x.full = s.full ∧
          x.curSlot.csr = s.curSlot.csr) ∧
      (∀ key, s.ownWord (s.reg a + (BitVec.ofNat 12 i.val).signExtend 64) 1 .read = some key →
        ∃ x, exec (.lbs d a t i) s = .next x ∧ s.retiredWith x d ((BitVec.ofNat 8 (s.loadNat key 1)).signExtend 64) ∧ s.memSame x ∧ x.full = s.full ∧
          x.curSlot.csr = s.curSlot.csr) ∧
      (∀ key, s.ownWord (s.reg a + (BitVec.ofNat 12 i.val).signExtend 64) 2 .read = some key →
        ∃ x, exec (.lh d a t i) s = .next x ∧ s.retiredWith x d (BitVec.ofNat 64 (s.loadNat key 2)) ∧ s.memSame x ∧ x.full = s.full ∧
          x.curSlot.csr = s.curSlot.csr) ∧
      (∀ key, s.ownWord (s.reg a + (BitVec.ofNat 12 i.val).signExtend 64) 2 .read = some key →
        ∃ x, exec (.lhs d a t i) s = .next x ∧ s.retiredWith x d ((BitVec.ofNat 16 (s.loadNat key 2)).signExtend 64) ∧ s.memSame x ∧ x.full = s.full ∧
          x.curSlot.csr = s.curSlot.csr) ∧
      (∀ key, s.ownWord (s.reg a + (BitVec.ofNat 12 i.val).signExtend 64) 4 .read = some key →
        ∃ x, exec (.lw d a t i) s = .next x ∧ s.retiredWith x d (BitVec.ofNat 64 (s.loadNat key 4)) ∧ s.memSame x ∧ x.full = s.full ∧
          x.curSlot.csr = s.curSlot.csr) ∧
      (∀ key, s.ownWord (s.reg a + (BitVec.ofNat 12 i.val).signExtend 64) 4 .read = some key →
        ∃ x, exec (.lws d a t i) s = .next x ∧ s.retiredWith x d ((BitVec.ofNat 32 (s.loadNat key 4)).signExtend 64) ∧ s.memSame x ∧ x.full = s.full ∧
          x.curSlot.csr = s.curSlot.csr) ∧
      (∀ key, s.ownWord (s.reg a + (BitVec.ofNat 12 i.val).signExtend 64) 8 .read = some key →
        ∃ x, exec (.ld d a t i) s = .next x ∧ s.retiredWith x d (BitVec.ofNat 64 (s.loadNat key 8)) ∧ s.memSame x ∧ x.full = s.full ∧
          x.curSlot.csr = s.curSlot.csr)

/-- Plain stores to the own local memory write exactly their bytes and retire. 08_memory_ops: Loads and stores. -/
def Obligations.StoresToOwnLocalMemory : Prop :=
  ∀ (s : State) (d a : Fin 32) (t : Bool) (i : Fin 4096), s.memoryWf → s.issues [d, a] 0 = true →
      (∀ key, s.ownWord (s.reg a + (BitVec.ofNat 12 i.val).signExtend 64) 1 .write = some key →
        ∃ x, exec (.sb d a t i) s = .next x ∧ s.retiredWith x 0 0 ∧ x.curSlot.csr = s.curSlot.csr ∧
          x.loadNat key 1 = (s.reg d).toNat % 2 ^ 8 ∧ s.memOutside x key 1 ∧ x.full = s.full) ∧
      (∀ key, s.ownWord (s.reg a + (BitVec.ofNat 12 i.val).signExtend 64) 2 .write = some key →
        ∃ x, exec (.sh d a t i) s = .next x ∧ s.retiredWith x 0 0 ∧ x.curSlot.csr = s.curSlot.csr ∧
          x.loadNat key 2 = (s.reg d).toNat % 2 ^ 16 ∧ s.memOutside x key 2 ∧ x.full = s.full) ∧
      (∀ key, s.ownWord (s.reg a + (BitVec.ofNat 12 i.val).signExtend 64) 4 .write = some key →
        ∃ x, exec (.sw d a t i) s = .next x ∧ s.retiredWith x 0 0 ∧ x.curSlot.csr = s.curSlot.csr ∧
          x.loadNat key 4 = (s.reg d).toNat % 2 ^ 32 ∧ s.memOutside x key 4 ∧ x.full = s.full) ∧
      (∀ key, s.ownWord (s.reg a + (BitVec.ofNat 12 i.val).signExtend 64) 8 .write = some key →
        ∃ x, exec (.sd d a t i) s = .next x ∧ s.retiredWith x 0 0 ∧ x.curSlot.csr = s.curSlot.csr ∧
          x.loadNat key 8 = (s.reg d).toNat % 2 ^ 64 ∧ s.memOutside x key 8 ∧ x.full = s.full)

/-- Plain loads and stores of DRAM act on the L1 line; one that misses is held for its line. 08_memory_ops: The data
cache. -/
def Obligations.PlainAccessesThroughTheCache : Prop :=
  ∀ (s : State) (d a : Fin 32) (t : Bool) (i : Fin 4096) (e : Range) (spa w : Nat),
    let v := s.reg a + (BitVec.ofNat 12 i.val).signExtend 64;
    let there := fun (x : State) => (x.coreAt (coreOfSlot s.cur)).findL (spa / 32);
    let held := fun (o : Out) => ∃ x acc, o = .next x ∧ s.heldOn x (.fill (spa / 32) acc) ∧ s.memSame x;
    s.plain = true → (s.home spa).win = .dram → (s.home spa).outside = false → e.decoded = false →
    s.journalBlocks s.cur v.toNat w = false →
    (s.issues [a] d = true → s.checkAccess s.cur v w .read = .ok (e, spa) →
      (∀ l, there s = some l →
        let n := leNat ((l.bytes.drop (spa % 32)).take w);
        let loads := fun (o : Out) (y : Word) => ∃ x, o = .next x ∧ s.retiredWith x d y ∧ s.memSame x;
        (w = 1 → loads (exec (.lb d a t i) s) (BitVec.ofNat 64 n) ∧
          loads (exec (.lbs d a t i) s) ((BitVec.ofNat 8 n).signExtend 64)) ∧
        (w = 2 → loads (exec (.lh d a t i) s) (BitVec.ofNat 64 n) ∧
          loads (exec (.lhs d a t i) s) ((BitVec.ofNat 16 n).signExtend 64)) ∧
        (w = 4 → loads (exec (.lw d a t i) s) (BitVec.ofNat 64 n) ∧
          loads (exec (.lws d a t i) s) ((BitVec.ofNat 32 n).signExtend 64)) ∧
        (w = 8 → loads (exec (.ld d a t i) s) (BitVec.ofNat 64 n))) ∧
      (there s = none →
        (w = 1 → held (exec (.lb d a t i) s) ∧ held (exec (.lbs d a t i) s)) ∧
        (w = 2 → held (exec (.lh d a t i) s) ∧ held (exec (.lhs d a t i) s)) ∧
        (w = 4 → held (exec (.lw d a t i) s) ∧ held (exec (.lws d a t i) s)) ∧
        (w = 8 → held (exec (.ld d a t i) s)))) ∧
    (s.issues [d, a] 0 = true → s.checkAccess s.cur v w .write = .ok (e, spa) →
      (∀ l, there s = some l →
        let stores := fun (o : Out) => ∃ x, o = .next x ∧ s.retiredWith x 0 0 ∧ s.memSame x ∧
          there x = some (l.merge (spa % 32) (leBytes w (s.reg d).toNat));
        (w = 1 → stores (exec (.sb d a t i) s)) ∧ (w = 2 → stores (exec (.sh d a t i) s)) ∧
        (w = 4 → stores (exec (.sw d a t i) s)) ∧ (w = 8 → stores (exec (.sd d a t i) s))) ∧
      (there s = none →
        (w = 1 → held (exec (.sb d a t i) s)) ∧ (w = 2 → held (exec (.sh d a t i) s)) ∧
        (w = 4 → held (exec (.sw d a t i) s)) ∧ (w = 8 → held (exec (.sd d a t i) s))))

/-- LDFE, SDFE, FEGET and FESET act on the full/empty word; a wait marks its register and the slot runs on.
08_memory_ops: Full/empty words. -/
def Obligations.FullEmptyLoadsAndStores : Prop :=
  (∀ (s : State) (d a : Fin 32) (t : Bool) (o : Fin 512) (key : Nat), s.memoryWf → s.speculative s.cur = false →
    let v := s.reg a + (BitVec.ofNat 9 o.val).signExtend 64 <<< 3;
    let others := fun (x : State) => ∀ c, c / 8 ≠ key / 8 → x.isFull c = s.isFull c;
    (s.issues [a] d = true → s.ownWord v 8 .read = some key →
      (∃ x, exec (.ldfe d a t 0 o) s = .next x ∧ s.retiredWith x d (BitVec.ofNat 64 (s.loadNat key 8)) ∧ s.memSame x ∧
        x.full = s.full) ∧
      (∃ x, exec (.ldfe d a t 5 o) s = .next x ∧ s.retiredWith x d (BitVec.ofNat 64 (s.loadNat key 8)) ∧ s.memSame x ∧
        x.isFull key = false ∧ others x) ∧
      (s.isFull key = true →
        (∃ x, exec (.ldfe d a t 1 o) s = .next x ∧ s.retiredWith x d (BitVec.ofNat 64 (s.loadNat key 8)) ∧ s.memSame x ∧
          x.full = s.full) ∧
        (∃ x, exec (.ldfe d a t 2 o) s = .next x ∧ s.retiredWith x d (BitVec.ofNat 64 (s.loadNat key 8)) ∧ s.memSame x ∧
          x.isFull key = false ∧ others x)) ∧
      (∃ x, exec (.feget d a t o) s = .next x ∧ s.retiredWith x d (if s.isFull key then 1 else 0) ∧ s.memSame x ∧
        x.full = s.full)) ∧
    (s.issues [d, a] 0 = true → s.ownWord v 8 .write = some key →
      (∃ x, exec (.sdfe d a t 0 o) s = .next x ∧ s.retiredWith x 0 0 ∧ x.loadNat key 8 = (s.reg d).toNat ∧
        s.memOutside x key 8 ∧ x.full = s.full) ∧
      (∃ x, exec (.sdfe d a t 4 o) s = .next x ∧ s.retiredWith x 0 0 ∧ x.loadNat key 8 = (s.reg d).toNat ∧
        s.memOutside x key 8 ∧ x.isFull key = true ∧ others x) ∧
      (s.isFull key = false →
        ∃ x, exec (.sdfe d a t 3 o) s = .next x ∧ s.retiredWith x 0 0 ∧ x.loadNat key 8 = (s.reg d).toNat ∧
          s.memOutside x key 8 ∧ x.isFull key = true ∧ others x)) ∧
    (s.issues [d, a] 0 = true → s.ownWord v 8 .both = some key →
      ∃ x, exec (.feset d a t o) s = .next x ∧ s.retiredWith x 0 0 ∧ s.memSame x ∧
        x.isFull key = (s.reg d).getLsbD 0 ∧ others x)) ∧
  (∀ (s : State) (d a : Fin 32) (t : Bool) (o : Fin 512) (key : Nat), s.speculative s.cur = false → d ≠ 0 →
    s.ownWord (s.reg a + (BitVec.ofNat 9 o.val).signExtend 64 <<< 3) 8 .read = some key → s.isFull key = false →
    s.issues [a] d = true →
    ∃ x, exec (.ldfe d a t 2 o) s = .next x ∧ x.curSlot.pc = s.curSlot.pc + 4 ∧ x.curSlot.pending d = true ∧
      (∀ q, x.reg q = s.reg q) ∧ s.memSame x ∧ x.full = s.full ∧
      ∃ m : Msg, x.msgs = s.msgs ++ [m] ∧ m.st = .waiting ∧ m.marking = true ∧ m.reg = d)

/-- The AMO instructions on the own local memory return the old value and store the result. 08_memory_ops: Atomics. -/
def Obligations.AtomicsOnOwnLocalMemory : Prop :=
  ∀ (s : State) (d a b : Fin 32) (t u w : Bool) (key : Nat), s.memoryWf → s.issuesHead [a, b] d = true →
    let n := if w then 4 else 8;
    s.ownWord (s.reg a) n .both = some key →
    let old := s.loadNat key n;
    let y := (s.reg b).toNat % 2 ^ (8 * n);
      (∃ x, exec (.amoadd d a b t u w) s = .next x ∧ s.retiredWith x d (BitVec.ofNat 64 old) ∧
        s.memOutside x key n ∧ x.loadNat key n = (old + y) % 2 ^ (8 * n) ∧ x.full = s.full) ∧
      (∃ x, exec (.amoswap d a b t u w) s = .next x ∧ s.retiredWith x d (BitVec.ofNat 64 old) ∧
        s.memOutside x key n ∧ x.loadNat key n = (y) % 2 ^ (8 * n) ∧ x.full = s.full) ∧
      (s.issues [d] d = true → ∃ x, exec (.amocas d a b t u w) s = .next x ∧ s.retiredWith x d (BitVec.ofNat 64 old) ∧
        s.memOutside x key n ∧ x.loadNat key n = (if old = (s.reg d).toNat % 2 ^ (8 * n) then y else old) % 2 ^ (8 * n) ∧ x.full = s.full) ∧
      (∃ x, exec (.amoand d a b t u w) s = .next x ∧ s.retiredWith x d (BitVec.ofNat 64 old) ∧
        s.memOutside x key n ∧ x.loadNat key n = (old &&& y) % 2 ^ (8 * n) ∧ x.full = s.full) ∧
      (∃ x, exec (.amoor d a b t u w) s = .next x ∧ s.retiredWith x d (BitVec.ofNat 64 old) ∧
        s.memOutside x key n ∧ x.loadNat key n = (old ||| y) % 2 ^ (8 * n) ∧ x.full = s.full) ∧
      (∃ x, exec (.amoxor d a b t u w) s = .next x ∧ s.retiredWith x d (BitVec.ofNat 64 old) ∧
        s.memOutside x key n ∧ x.loadNat key n = (old ^^^ y) % 2 ^ (8 * n) ∧ x.full = s.full) ∧
      (∃ x, exec (.amomin d a b t u w) s = .next x ∧ s.retiredWith x d (BitVec.ofNat 64 old) ∧
        s.memOutside x key n ∧ x.loadNat key n = (if signedField old (8 * n) < signedField y (8 * n) then old else y) % 2 ^ (8 * n) ∧ x.full = s.full) ∧
      (∃ x, exec (.amomax d a b t u w) s = .next x ∧ s.retiredWith x d (BitVec.ofNat 64 old) ∧
        s.memOutside x key n ∧ x.loadNat key n = (if signedField old (8 * n) < signedField y (8 * n) then y else old) % 2 ^ (8 * n) ∧ x.full = s.full) ∧
      (∃ x, exec (.amominu d a b t u w) s = .next x ∧ s.retiredWith x d (BitVec.ofNat 64 old) ∧
        s.memOutside x key n ∧ x.loadNat key n = (min old y) % 2 ^ (8 * n) ∧ x.full = s.full) ∧
      (∃ x, exec (.amomaxu d a b t u w) s = .next x ∧ s.retiredWith x d (BitVec.ofNat 64 old) ∧
        s.memOutside x key n ∧ x.loadNat key n = (max old y) % 2 ^ (8 * n) ∧ x.full = s.full) ∧
      (∃ x, exec (.amofadd d a b t u w) s = .next x ∧ s.retiredWith x d (BitVec.ofNat 64 old) ∧
        s.memOutside x key n ∧ x.loadNat key n = (if w then (fp32.addBits 0 old y).1 else (fp64.addBits 0 old y).1) % 2 ^ (8 * n) ∧ x.full = s.full)

/-- RLD, RSTFE and RAMO send their access and are held; RST posts its store in the journal and retires. 08_memory_ops:
Remote instructions, 08_memory_ops: The posted-store journal. -/
def Obligations.RemoteInstructionsSendMessages : Prop :=
  ∀ (s : State) (d a b : Fin 32) (t u w : Bool) (spa : Nat),
    (∀ z : Fin 4, s.issuesHead [a] d = true →
      s.reaches (s.reg a) (8 / 2 ^ z.val) .read (fun h => h.plainOk false (8 / 2 ^ z.val)) = some spa →
      ∃ x, exec (.rld d a t 0 z) s = .next x ∧ s.sends x .read (s.reg a) spa (8 / 2 ^ z.val) 0 d ∧
        s.heldOn x (.msg s.nextId) ∧ s.memSame x) ∧
    (∀ z : Fin 4, s.issuesHead [a, b] 0 = true →
      s.reaches (s.reg a) (8 / 2 ^ z.val) .write (fun h => h.plainOk true (8 / 2 ^ z.val)) = some spa →
      ∀ f, (s.coreAt (coreOfSlot s.cur)).freeEntry = some f → s.journalSlot s.cur = some f →
      ∃ x, exec (.rst a b t u z) s = .next x ∧
        s.sends x .write (s.reg a) spa (8 / 2 ^ z.val)
          (BitVec.ofNat 64 ((s.reg b).toNat % 2 ^ (8 * (8 / 2 ^ z.val)))) 0 ∧
        s.retiredWith x 0 0 ∧ s.memSame x ∧
        ∃ j : JEntry, FMap.find (x.coreAt (coreOfSlot s.cur)).journal f = some j ∧ j.slot = s.cur ∧ j.va = s.reg a ∧
          j.st = .sent) ∧
    (s.issuesHead [a, b] 0 = true → s.reaches (s.reg a) 8 .write (fun h => h.synchronises) = some spa →
      s.secondWait spa = false →
      ∃ x, exec (.rstfe a b t u 3) s = .next x ∧ s.sends x (.storeFe 3) (s.reg a) spa 8 (s.reg b) 0 ∧
        s.heldOn x (.msg s.nextId) ∧ s.memSame x) ∧
    (s.issuesHead [a, b] d = true →
      s.reaches (s.reg a) (if w then 4 else 8) .both (fun h => h.synchronises) = some spa →
      ∃ x, exec (.ramo d a b t u w 0) s = .next x ∧
        s.sends x (.amo 0 (s.reg d)) (s.reg a) spa (if w then 4 else 8) (s.reg b) d ∧
        s.heldOn x (.msg s.nextId) ∧ s.memSame x)

/-- ACQ, REL, FENCE, BIND and QFENCE take, fill, order, bind and join as their rules say. 13_consistency: The
synchronisation instructions, 13_consistency: Binding regions to objects. -/
def Obligations.SynchronisingInstructions : Prop :=
  (∀ (s : State) (d a : Fin 32) (sc : Fin 8) (key : Nat), s.memoryWf → s.allClean = true →
    (s.coreAt (coreOfSlot s.cur)).journal = [] →
    (s.issuesHead [a] d = true → s.isFull key = true →
      (d = 0 → s.ownObject (s.reg a) sc.val .read = some key →
        ∃ x, exec (.acq d a sc) s = .next x ∧ s.retiredWith x 0 0 ∧ s.memSame x ∧ x.isFull key = true) ∧
      (d ≠ 0 → s.ownObject (s.reg a) sc.val .both = some key →
        ∃ x, exec (.acq d a sc) s = .next x ∧ s.retiredWith x d (BitVec.ofNat 64 (s.loadNat key 8)) ∧ s.memSame x ∧
          x.isFull key = false)) ∧
    (s.issuesHead [a, d] 0 = true →
      (d = 0 → s.ownObject (s.reg a) sc.val .read = some key →
        ∃ x, exec (.rel d a sc) s = .next x ∧ s.retiredWith x 0 0 ∧ s.memSame x ∧ x.full = s.full) ∧
      (d ≠ 0 → s.ownObject (s.reg a) sc.val .write = some key →
        ∃ x, exec (.rel d a sc) s = .next x ∧ s.retiredWith x 0 0 ∧ x.loadNat key 8 = (s.reg d).toNat ∧
          s.memOutside x key 8 ∧ x.isFull key = true)) ∧
    (s.issuesHead [] 0 = true →
      exec (.fence 0) s = .next s.retire ∧
      (sc ≠ 0 → exec (.fence sc) s =
        .next (s.modCore (coreOfSlot s.cur) (fun c => { c with l1 := [] })).retire)) ∧
    (∀ e : Nat × Range, s.issuesHead [d, a] 0 = true → (s.reg d).toNat < 2 ^ 48 →
      (s.entriesOf (dieOfSlot s.cur) (s.slotTask s.cur)).find? (fun e => e.2.holdsVa (s.reg d).toNat) = some e →
      (s.reg a = 0 → exec (.bind d a) s =
        .next (s.modTask (s.slotTask s.cur).id (fun t =>
          { t with binds := (s.slotTask s.cur).binds.filter (fun b => b.1 != e.1) })).retire) ∧
      (s.reg a ≠ 0 → (s.reg a).toNat % 8 = 0 → (s.slotTask s.cur).binds.length < 8 → exec (.bind d a) s =
        .next (s.modTask (s.slotTask s.cur).id (fun t =>
          { t with binds := (s.slotTask s.cur).binds.filter (fun b => b.1 != e.1) ++ [(e.1, (s.reg a).toNat)] })).retire))) ∧
  (∀ (s : State) (m : Fin 4096), s.issuesHead [] 0 = true → s.queuesFree (coreOfSlot s.cur) m.val = true →
    ∃ x, exec (.qfence m) s = .next x ∧ s.retiredWith x 0 0 ∧ s.memSame x ∧
      (∃ j ∈ x.joins, j.id = s.nextId ∧ j.core = coreOfSlot s.cur ∧ j.ahead = s.queuedIn (coreOfSlot s.cur) m.val) ∧
      (∀ q, q < 8 → FMap.get [] (x.coreAt (coreOfSlot s.cur)).queues q =
        if bitAt m.val q then
          (FMap.get [] (s.coreAt (coreOfSlot s.cur)).queues q).filter s.copyEntryOpen ++ [.join s.nextId]
        else FMap.get [] (s.coreAt (coreOfSlot s.cur)).queues q) ∧
      (bitAt m.val 8 = true → (s.coreAt (coreOfSlot s.cur)).mat.halted = false →
        ∃ j : MatCmd, (x.coreAt (coreOfSlot s.cur)).mat.queue =
          (s.coreAt (coreOfSlot s.cur)).mat.queue.filter s.matEntryOpen ++ [j] ∧ j.join = some s.nextId) ∧
      (bitAt m.val 8 = false ∨ (s.coreAt (coreOfSlot s.cur)).mat.halted = true →
        (x.coreAt (coreOfSlot s.cur)).mat.queue = (s.coreAt (coreOfSlot s.cur)).mat.queue))

/-- The cache instructions on the lines of their range: IPF has a fetch of each present line wait for its fill; IPIN fills
what is absent and pins, or names the cores whose sets would hold more than two pinned lines; IUNPIN drops the
partition's pins; DPF asks for the absent line; CWB retires with nothing dirty, and else is held on its write-back; CINV
drops the lines. 05_encoding: The instruction cache and pinned code, 08_memory_ops: The data cache. -/
def Obligations.CacheInstructions : Prop :=
  ∀ (s : State) (d a : Fin 32) (l w : Bool) (n : Fin 512),
    let c := coreOfSlot s.cur;
    let lines := (List.range (n.val + 1)).map (fun i => ((s.reg a).toNat / 32 * 32 + 32 * i) % 2 ^ 64);
    let asid := s.asidOf s.cur;
    let part := (s.slotTask s.cur).part;
    let data := s.dataLines a n;
    (s.issues [a] 0 = true → s.codeHeld = false →
      (∃ x, exec (.ipf a l n) s = .next x ∧ s.retiredWith x 0 0 ∧ s.memSame x ∧
        (∀ v ∈ lines, s.codeLine v ≠ none → ∀ c ∈ s.codeTargets l, ∀ i ∈ (x.coreAt c).icache,
          i.asid = asid → i.line = v / 32 → s.cur ∈ i.refetch)) ∧
      (exec (.ipf a l n) s = .next
        ((s.codeTargets l).foldl (fun s c => lines.foldl (fun s v => s.refetch c v) s) s).retire) ∧
      (∃ x, exec (.iunpin a l n) s = .next x ∧ s.retiredWith x 0 0 ∧ s.memSame x ∧
        ∀ c ∈ s.codeTargets l, ∀ i ∈ (x.coreAt c).icache, i.asid = asid → (i.line * 32) ∈ lines → i.pin ≠ some part)) ∧
    (s.issues [a] d = true → s.codeHeld = false → (∀ v ∈ lines, ∃ p, s.codeLine v = some p ∧ (s.home p).win = .dram) →
      ((∀ v ∈ lines, ∀ p, s.codeLine v = some p →
          (s.readLine p).1 = 0 ∧ s.lostChunk p = none ∧ s.lostHome (s.home p) = false) →
        (∀ v ∈ lines, ∀ c ∈ s.codeTargets l, s.fillPending c asid (v / 32) = false) →
        (∀ c ∈ s.codeTargets l, (s.coreAt c).overPinned asid (lines.map (· / 32)) = false) →
        ∃ x, exec (.ipin d a l n) s = .next x ∧ s.retiredWith x d 0 ∧ s.memSame x ∧
          ∀ v ∈ lines, ∀ c ∈ s.codeTargets l, ∃ i, (x.coreAt c).findI asid (v / 32) = some i ∧ i.pin.isSome = true) ∧
      (l = false → (s.coreAt c).overPinned asid (lines.map (· / 32)) = true →
        exec (.ipin d a l n) s = .next (s.wrote d (BitVec.ofNat 64 (2 ^ 63 + 2 ^ (c % 8)))))) ∧
    (s.issues [a] 0 = true →
      (∃ x, exec (.dpf a n) s = .next x ∧ s.retiredWith x 0 0 ∧ s.memSame x ∧ x.cores = s.cores) ∧
      ((∀ y ∈ data, y.1.r = false ∨ (s.coreAt c).findL y.2 ≠ none) → exec (.dpf a n) s = .next s.retire) ∧
      (∀ e line, data = [(e, line)] → e.r = true → (s.coreAt c).findL line = none →
        (s.clusterAt (clusterOfCore c)).merges = [] →
        exec (.dpf a n) s = .next
          ((s.modCluster (clusterOfCore c) (fun q => { q with merges := [⟨line / 8, [(line, .l1Fill c line)]⟩] })).after
            (acNs 64) (.mergeWindowExpiry (clusterOfCore c) (line / 8))).retire) ∧
      ((∀ y ∈ data, (w = true ∨ y.1.w = false) → s.wbInFlight c y.2 = false ∧
          ∀ i ∈ (s.coreAt c).l1, sameLine i.line y.2 = true → i.isDirty = false) →
        exec (.cinv a w n) s = .next (s.modCore c (fun k =>
          { k with l1 := k.l1.filter (fun i => !(data.any (fun y => sameLine y.2 i.line))) })).retire)) ∧
    (s.issuesHead [a] 0 = true →
      ((∀ y ∈ data, s.wbInFlight c y.2 = false ∧ ∀ i ∈ (s.coreAt c).l1, sameLine i.line y.2 = true → i.isDirty = false) →
        exec (.cwb a n) s = .next s.retire) ∧
      (s.curSlot.reissue = true → exec (.cwb a n) s = .next s.retire) ∧
      (∀ e i, data = [(e, i.line)] → (s.coreAt c).l1.filter (fun k => sameLine k.line i.line) = [i] → i.isDirty = true →
        s.heldLine i.line = false → s.curSlot.reissue = false → s.wbs = [] →
        ∃ x k, exec (.cwb a n) s = .next x ∧ s.heldOn x .writeback ∧ x.wbs = [k] ∧ k.core = c ∧ k.line = i.line ∧
          k.bytes = i.bytes ∧ k.mask = i.dirty ∧ k.slot = some s.cur ∧
          ∀ y ∈ (x.coreAt c).l1, sameLine y.line i.line = true → y.isDirty = false))

/-- The bit-buffer instructions start, take, skip, align, emit, flush and tell. 08_memory_ops: The bit buffer. -/
def Obligations.BitBufferInstructions : Prop :=
  ∀ (s : State) (d a b : Fin 32) (t u : Bool) (n : Fin 64),
    (s.issues [a, b] 0 = true → (s.reg a).toNat % 8 = 0 → (s.reg a).toNat ≤ (s.reg b).toNat →
      exec (.bbinit a b t u) s = .next (s.modCur (fun x =>
        { x with bb := { ptr := (s.reg a).setWidth 48, lim := (s.reg b).setWidth 48 } })).retire) ∧
    (s.issues [] d = true → n.val < s.curSlot.bb.cnt →
      (∃ x, exec (.bbget d n) s = .next x ∧
        x.curSlot.bb = { s.curSlot.bb with win := s.curSlot.bb.win >>> (n.val + 1), cnt := s.curSlot.bb.cnt - (n.val + 1) } ∧
        x.curSlot.pc = s.curSlot.pc + 4 ∧
        ∀ q, x.reg q = if q = d ∧ d ≠ 0 then BitVec.ofNat 64 (s.curSlot.bb.win.toNat % 2 ^ (n.val + 1)) else s.reg q) ∧
      (∃ x, exec (.bbpeek d n) s = .next x ∧ x.curSlot.bb = s.curSlot.bb ∧ x.curSlot.pc = s.curSlot.pc + 4 ∧
        ∀ q, x.reg q = if q = d ∧ d ≠ 0 then BitVec.ofNat 64 (s.curSlot.bb.win.toNat % 2 ^ (n.val + 1)) else s.reg q) ∧
      (∃ x, exec (.bbskip n) s = .next x ∧
        x.curSlot.bb = { s.curSlot.bb with win := s.curSlot.bb.win >>> (n.val + 1), cnt := s.curSlot.bb.cnt - (n.val + 1) } ∧
        x.curSlot.pc = s.curSlot.pc + 4 ∧ ∀ q, x.reg q = s.reg q)) ∧
    (∀ k, s.issues [] 0 = true → k ≤ s.curSlot.bb.cnt → k ≤ n.val →
      (∃ z : Int, 8 * (s.curSlot.bb.ptr.toNat : Int) - s.curSlot.bb.cnt + k = z * (n.val + 1)) →
      ∃ x, exec (.bbalign n) s = .next x ∧
        x.curSlot.bb = { s.curSlot.bb with win := s.curSlot.bb.win >>> k, cnt := s.curSlot.bb.cnt - k } ∧
        x.curSlot.pc = s.curSlot.pc + 4 ∧ ∀ q, x.reg q = s.reg q) ∧
    (s.issues [a] 0 = true → s.curSlot.bb.cnt + n.val + 1 < 64 →
      ∃ x, exec (.bbemit a t n) s = .next x ∧ x.curSlot.bb.cnt = s.curSlot.bb.cnt + n.val + 1 ∧
        x.curSlot.bb.win.toNat = s.curSlot.bb.win.toNat % 2 ^ s.curSlot.bb.cnt +
          (s.reg a).toNat % 2 ^ (n.val + 1) * 2 ^ s.curSlot.bb.cnt ∧ s.memSame x ∧ x.curSlot.pc = s.curSlot.pc + 4) ∧
    (s.issues [] 0 = true → s.curSlot.bb.cnt = 0 →
      ∃ x, exec .bbflush s = .next x ∧ x.curSlot.bb = { s.curSlot.bb with win := 0 } ∧ s.memSame x ∧
        x.curSlot.pc = s.curSlot.pc + 4) ∧
    (∀ key, s.memoryWf → s.issues [] 0 = true → 0 < s.curSlot.bb.cnt → s.curSlot.bb.cnt ≤ 8 →
      s.curSlot.bb.ptr.toNat < s.curSlot.bb.lim.toNat → s.bitAddr s.curSlot.bb.ptr.toNat 1 .write = .ok key →
      ∃ x, exec .bbflush s = .next x ∧ x.curSlot.bb = { s.curSlot.bb with win := 0, cnt := 0, ptr := s.curSlot.bb.ptr + 1 } ∧
        x.loadNat key 1 = s.curSlot.bb.win.toNat % 2 ^ s.curSlot.bb.cnt ∧ s.memOutside x key 1) ∧
    (s.issues [] d = true → exec (.bbtell d) s =
      .next (s.wrote d (BitVec.ofNat 64 (s.curSlot.bb.ptr.toNat * 2 ^ 8 + s.curSlot.bb.cnt))))

/-- The FP instructions write their rounded result and raise its flags, or trap on an enabled flag. 07_numbers: Scalar
floating instructions. -/
def Obligations.FloatingResults : Prop :=
  ∀ (s : State) (d a b : Fin 32) (t u : Bool) (p : Fin 4) (r : Fin 8), s.issues [a, b] d = true →
    let f := fmtOf p.val;
    let x := f.bits (s.reg a);
    let y := f.bits (s.reg b);
    s.floatsTo (exec (.fadd d a b t u p r) s) d (f.addBits (s.roundMode r.val) x y) ∧
    s.floatsTo (exec (.fsub d a b t u p r) s) d (f.subBits (s.roundMode r.val) x y) ∧
    s.floatsTo (exec (.fmul d a b t u p r) s) d (f.mulBits (s.roundMode r.val) x y) ∧
    s.floatsTo (exec (.fdiv d a b t u p r) s) d (f.divBits (s.roundMode r.val) x y) ∧
    s.floatsTo (exec (.fmin d a b t u p) s) d (f.minMaxNum false x y) ∧
    s.floatsTo (exec (.fmax d a b t u p) s) d (f.minMaxNum true x y) ∧
    s.floatsTo (exec (.fminm d a b t u p) s) d (f.minMaxNan false x y) ∧
    s.floatsTo (exec (.fmaxm d a b t u p) s) d (f.minMaxNan true x y) ∧
    s.floatsTo (exec (.feq d a b t u p) s) d (f.eqBits x y) ∧
    s.floatsTo (exec (.flt d a b t u p) s) d (f.ltBits x y) ∧
    s.floatsTo (exec (.fle d a b t u p) s) d (f.leBits x y) ∧
    s.floatsTo (exec (.fsgnj d a b t u p) s) d ((f.withSign (f.sign y) (f.mag x), 0)) ∧
    s.floatsTo (exec (.fsgnjn d a b t u p) s) d ((f.withSign (!f.sign y) (f.mag x), 0)) ∧
    s.floatsTo (exec (.fsgnjx d a b t u p) s) d ((f.withSign (f.sign x != f.sign y) (f.mag x), 0)) ∧
    s.floatsTo (exec (.fsqrt d a t p r) s) d (f.sqrtBits (s.roundMode r.val) x) ∧
    s.floatsTo (exec (.fclass d a t p) s) d ((f.classMask x, 0)) ∧
    (∀ fl, fl ≠ 0 → s.curSlot.enabledFlags fl ≠ 0 → (f.addBits (s.roundMode r.val) x y).2 = fl →
      exec (.fadd d a b t u p r) s =
        .next ((s.modCur (fun z => z.raise fl)).trap 0x0D (BitVec.ofNat 64 fl)))

/-- FMA and its kin round once, FCVT converts, the transcendental instructions give their function. 07_numbers: Scalar
floating instructions, 07_numbers: Special functions. -/
def Obligations.FusedConvertedAndTranscendental : Prop :=
  (∀ (s : State) (d a b c : Fin 32) (t q : Bool) (w : Fin 4) (r : Fin 8),
    (s.issues [a, b, c] d = true →
      let f := if q then fp32 else fp64;
      let go := fun (np nc : Bool) => f.fmaBits (s.roundMode r.val) np nc (f.bits (s.reg a)) (f.bits (s.reg b)) (f.bits (s.reg c));
      s.floatsTo (exec (.fma d a b c q r) s) d (go false false) ∧ s.floatsTo (exec (.fms d a b c q r) s) d (go false true) ∧
      s.floatsTo (exec (.fnms d a b c q r) s) d (go true false) ∧ s.floatsTo (exec (.fnma d a b c q r) s) d (go true true)) ∧
    (s.issues [a] d = true → ∀ x y : Fin 8,
      s.floatsTo (exec (.fcvt d a w t x y r) s) d (convertValue x.val y.val w.val (s.roundMode r.val) (s.reg a)))) ∧
  (∀ (s : State) (d a : Fin 32) (t : Bool) (p : Fin 4), s.issues [a] d = true →
    let x := (fmtOf p.val).bits (s.reg a);
    s.floatsTo (exec (.fexp2 d a t p) s) d (sfu 0 p.val x) ∧
    s.floatsTo (exec (.flog2 d a t p) s) d (sfu 1 p.val x) ∧
    s.floatsTo (exec (.fexp d a t p) s) d (sfu 2 p.val x) ∧
    s.floatsTo (exec (.fln d a t p) s) d (sfu 3 p.val x) ∧
    s.floatsTo (exec (.frcp d a t p) s) d (sfu 4 p.val x) ∧
    s.floatsTo (exec (.frsq d a t p) s) d (sfu 5 p.val x) ∧
    s.floatsTo (exec (.fsin d a t p) s) d (sfu 6 p.val x) ∧
    s.floatsTo (exec (.fcos d a t p) s) d (sfu 7 p.val x) ∧
    s.floatsTo (exec (.ftanh d a t p) s) d (sfu 8 p.val x) ∧
    s.floatsTo (exec (.fsigm d a t p) s) d (sfu 9 p.val x) ∧
    s.floatsTo (exec (.ferf d a t p) s) d (sfu 10 p.val x))

/-- XCLR, XACC and XRND clear, add to and round the exact-sum cell of the own local memory. 07_numbers: Exact-sum
cells. -/
def Obligations.ExactSumCells : Prop :=
  ∀ (s : State) (d a b : Fin 32) (t u : Bool) (p : Fin 4) (r : Fin 8) (key : Nat), s.memoryWf →
    s.ownWord (s.reg a) 64 .both = some key →
    (s.issuesHead [a] 0 = true →
      ∃ x, exec (.xclr a t) s = .next x ∧ s.retiredWith x 0 0 ∧ s.memOutside x key 64 ∧ x.loadNat key 64 = 0 ∧
        x.full = s.full) ∧
    (s.issuesHead [a, b] 0 = true →
      s.curSlot.enabledFlags ((fmtOf p.val).snanFlag [(fmtOf p.val).bits (s.reg b)]) = 0 →
      ∃ x, exec (.xacc a b t u p) s = .next x ∧ s.retiredWith x 0 0 ∧ s.memOutside x key 48 ∧
        x.loadNat key 48 = cellAdd p.val (s.loadNat key 48) ((fmtOf p.val).bits (s.reg b)) % 2 ^ 384 ∧ x.full = s.full ∧
        x.curSlot.csr = { s.curSlot.csr with
          fcsr := s.curSlot.csr.fcsr ||| BitVec.ofNat 64 (8 * (fmtOf p.val).snanFlag [(fmtOf p.val).bits (s.reg b)]) }) ∧
    (s.issuesHead [a] d = true →
      s.floatsTo (exec (.xrnd d a t p r) s) d (cellRound p.val (s.roundMode r.val) (s.loadNat key 48)))

/-- The element-wise vector instructions act on the first VL elements and leave every other lane. 09_vector:
Arithmetic. -/
def Obligations.VectorElementResults : Prop :=
  ∀ (s : State) (d a b : Fin 16) (y : Fin 8), s.vecCheck (y.val == 1) .none = 0 → s.curSlot.lanes ≤ 128 →
    let rm := s.roundMode 7;
    let sg := fun n => signedField n (vbits y.val);
    s.lanewise (exec (.vadd d a b y) s) d.val y.val (fun i => if vfloat y.val then (vfmt y.val).addBits rm (s.curSlot.velem y.val a.val i) (s.curSlot.velem y.val b.val i) else ((s.curSlot.velem y.val a.val i + s.curSlot.velem y.val b.val i) % 2 ^ vbits y.val, 0)) ∧
    s.lanewise (exec (.vsub d a b y) s) d.val y.val (fun i => if vfloat y.val then (vfmt y.val).subBits rm (s.curSlot.velem y.val a.val i) (s.curSlot.velem y.val b.val i) else ((s.curSlot.velem y.val a.val i + (2 ^ vbits y.val - s.curSlot.velem y.val b.val i)) % 2 ^ vbits y.val, 0)) ∧
    s.lanewise (exec (.vmul d a b y) s) d.val y.val (fun i => if vfloat y.val then (vfmt y.val).mulBits rm (s.curSlot.velem y.val a.val i) (s.curSlot.velem y.val b.val i) else ((s.curSlot.velem y.val a.val i) * (s.curSlot.velem y.val b.val i) % 2 ^ vbits y.val, 0)) ∧
    s.lanewise (exec (.vfma d a b y) s) d.val y.val (fun i => (vfmt y.val).fmaBits rm false false (s.curSlot.velem y.val a.val i) (s.curSlot.velem y.val b.val i) (s.curSlot.velem y.val d.val i)) ∧
    s.lanewise (exec (.vmin d a b y) s) d.val y.val (fun i => if vfloat y.val then (vfmt y.val).minMaxNum false (s.curSlot.velem y.val a.val i) (s.curSlot.velem y.val b.val i) else (if sg (s.curSlot.velem y.val b.val i) < sg (s.curSlot.velem y.val a.val i) then s.curSlot.velem y.val b.val i else s.curSlot.velem y.val a.val i, 0)) ∧
    s.lanewise (exec (.vmax d a b y) s) d.val y.val (fun i => if vfloat y.val then (vfmt y.val).minMaxNum true (s.curSlot.velem y.val a.val i) (s.curSlot.velem y.val b.val i) else (if sg (s.curSlot.velem y.val a.val i) < sg (s.curSlot.velem y.val b.val i) then s.curSlot.velem y.val b.val i else s.curSlot.velem y.val a.val i, 0)) ∧
    s.lanewise (exec (.vand d a b y) s) d.val y.val (fun i => ((s.curSlot.velem y.val a.val i) &&& (s.curSlot.velem y.val b.val i), 0)) ∧
    s.lanewise (exec (.vor d a b y) s) d.val y.val (fun i => ((s.curSlot.velem y.val a.val i) ||| (s.curSlot.velem y.val b.val i), 0)) ∧
    s.lanewise (exec (.vxor d a b y) s) d.val y.val (fun i => ((s.curSlot.velem y.val a.val i) ^^^ (s.curSlot.velem y.val b.val i), 0)) ∧
    s.lanewise (exec (.vshl d a b y) s) d.val y.val (fun i => ((s.curSlot.velem y.val a.val i) * 2 ^ ((s.curSlot.velem y.val b.val i) % vbits y.val), 0)) ∧
    s.lanewise (exec (.vshr d a b y) s) d.val y.val (fun i => ((s.curSlot.velem y.val a.val i) / 2 ^ ((s.curSlot.velem y.val b.val i) % vbits y.val), 0)) ∧
    s.lanewise (exec (.vsel d a b y) s) d.val y.val (fun i => (if s.curSlot.velem y.val d.val i ≠ 0 then s.curSlot.velem y.val a.val i else s.curSlot.velem y.val b.val i, 0)) ∧
    s.lanewise (exec (.vmov d a y) s) d.val y.val (fun i => (s.curSlot.velem y.val a.val i, 0)) ∧
    s.lanewise (exec (.vexp d a y) s) d.val y.val (fun i => sfu 2 (vcode y.val) (s.curSlot.velem y.val a.val i)) ∧
    s.lanewise (exec (.vln d a y) s) d.val y.val (fun i => sfu 3 (vcode y.val) (s.curSlot.velem y.val a.val i)) ∧
    s.lanewise (exec (.vrcp d a y) s) d.val y.val (fun i => sfu 4 (vcode y.val) (s.curSlot.velem y.val a.val i)) ∧
    s.lanewise (exec (.vrsq d a y) s) d.val y.val (fun i => sfu 5 (vcode y.val) (s.curSlot.velem y.val a.val i)) ∧
    s.lanewise (exec (.vtanh d a y) s) d.val y.val (fun i => sfu 8 (vcode y.val) (s.curSlot.velem y.val a.val i)) ∧
    s.lanewise (exec (.vperm d a b y) s) d.val y.val (fun i =>
      (if s.curSlot.velem y.val b.val i < s.curSlot.vl then s.curSlot.velem y.val a.val (s.curSlot.velem y.val b.val i) else 0, 0))

/-- VBCST, VCMP, the reductions, VCVT, VQNT and VMAXX give the values of R223 to R228. 09_vector: Arithmetic,
09_vector: Scale agreement and quantisation. -/
def Obligations.VectorOtherResults : Prop :=
  (∀ (s : State) (d a : Fin 16) (e c : Fin 32) (t : Bool) (y z : Fin 8), s.curSlot.lanes ≤ 128 →
    let rm := s.roundMode 7;
    let elems := fun (n : Nat) => (List.range s.curSlot.vl).map (s.curSlot.velem n a.val);
    (s.issues [c] 0 = true → s.vecCheck (y.val == 1) .none = 0 →
      s.lanewise (exec (.vbcst d c t y) s) d.val y.val (fun _ => ((s.reg c).toNat % 2 ^ vbits y.val, 0))) ∧
    (∀ b : Fin 16, s.vecCheck (y.val == 1) (.cmp (vfloat y.val)) = 0 →
      s.lanewise (exec (.vcmp d a b y) s) d.val y.val (fun i =>
        vecFn 0x0B y.val rm (s.curSlot.engReg 1 % 8) (s.curSlot.velem y.val a.val i) (s.curSlot.velem y.val b.val i)
          (s.curSlot.velem y.val d.val i))) ∧
    (s.issues [] e = true → s.vecCheck (y.val == 1) .none = 0 →
      ∀ k, (k = 0 ∨ k = 1 ∨ k = 2) →
      let r := reduce k y.val rm (treeDepth s.curSlot.lanes) (elems y.val);
      s.floatsTo (exec (if k = 0 then .vredadd e a y else if k = 1 then .vredmax e a y else .vredmin e a y) s) e
        (if vfloat y.val then r else ((sext64 r.1 (vbits y.val)).toNat, r.2))) ∧
    (s.vecCheck (z.val == 1 || y.val == 1) .none = 0 →
      s.lanewise (exec (.vcvt d a z y) s) d.val z.val (fun i =>
        convertValue (convCode z.val).1 (convCode y.val).1 (max (convCode z.val).2 (convCode y.val).2) rm
          (BitVec.ofNat 64 (s.curSlot.velem y.val a.val i)))) ∧
    (s.issues [c] 0 = true → s.vecCheck false .none = 0 →
      let t6 := bitAt (s.curSlot.engReg 1) 11;
      let k := scaleExp (if t6 then 1 else 3) (fp32.bits (s.reg c));
      s.lanewise (exec (.vqnt d a c t) s) d.val 0 (fun i =>
        let q := toTapered (if t6 then 6 else 8) ((fp32.num (s.curSlot.velem 0 a.val i)).scale k.1)
          (fp32.isSnan (s.curSlot.velem 0 a.val i))
        (q.1, q.2 ||| k.2)))) ∧
  (∀ (s : State) (d : Fin 32) (a : Fin 16), s.issues [] d = true → d ≠ 0 → s.vecCheck false .mxw = 0 →
    bitAt (fieldAt (s.curSlot.engReg 1) 16 8) (coreOfSlot s.cur % 8) = true →
    fieldAt (s.curSlot.engReg 1) 16 8 = 2 ^ (coreOfSlot s.cur % 8) → fieldAt (s.curSlot.engReg 1) 12 3 = 0 →
    (s.clusterAt (clusterOfSlot s.cur)).exchanges = [] → s.openExchanges (clusterOfSlot s.cur) < 8 →
    s.curSlot.bind ≠ none → s.copiesOf s.curSlot.who = [s.cur] → s.msgs = [] →
    let m := largestMagnitude ((List.range s.curSlot.vl).map (s.curSlot.velem 0 a.val));
    s.curSlot.enabledFlags m.2 = 0 →
    ∃ x, exec (.vmaxx d a) s = .next x ∧ x.curSlot.pc = s.curSlot.pc + 4 ∧ x.curSlot.ready d = true ∧
      x.reg d = BitVec.ofNat 64 m.1 ∧ (∀ q, q ≠ d → x.reg q = s.reg q) ∧ s.memSame x ∧
      (x.clusterAt (clusterOfSlot s.cur)).exchanges = [])

/-- VCLAIM, VRENEG and VREL grant, regrant and release lanes in groups of eight. 09_vector: The lane pool and claims.
-/
def Obligations.VectorClaims : Prop :=
  (∀ (s : State) (d a : Fin 32) (t : Bool), s.issues [a] d = true → s.curSlot.claim = none → s.twin s.cur = none →
    let gs := s.grantGroups (clusterOfSlot s.cur) ((min (max (s.reg a).toNat 1) 128 + 7) / 8);
    ∃ x, exec (.vclaim d a t) s = .next x ∧ x.curSlot.pc = s.curSlot.pc + 4 ∧ x.curSlot.lanes = 8 * gs.length ∧
      x.curSlot.claim = (if gs.isEmpty then none else some ⟨8 * gs.length, gs⟩) ∧ s.memSame x ∧
      (∀ q, x.reg q = if q = d ∧ d ≠ 0 then BitVec.ofNat 64 (8 * gs.length) else s.reg q) ∧
      (gs ≠ [] → ∀ v i, i < 128 → x.curSlot.lane v i = 0)) ∧
  (∀ (s : State) (d a : Fin 32) (t : Bool), s.issues [a] d = true → s.curSlot.claim ≠ none →
    exec (.vclaim d a t) s = .next (s.trap 0x12 4)) ∧
  (∀ (s : State) (d a : Fin 32) (t : Bool), s.issues [a] d = true → s.twin s.cur = none →
    ∃ x, exec (.vreneg d a t) s = .next x ∧ x.curSlot.pc = s.curSlot.pc + 4 ∧ s.memSame x ∧
      x.curSlot.lanes ≤ 8 * ((min (max (s.reg a).toNat 1) 128 + 7) / 8) ∧
      x.curSlot.engReg 0 = min (s.curSlot.engReg 0) x.curSlot.lanes ∧
      (∀ q, x.reg q = if q = d ∧ d ≠ 0 then BitVec.ofNat 64 x.curSlot.lanes else s.reg q) ∧
      (∀ v i, i < min s.curSlot.lanes x.curSlot.lanes → i < 128 → x.curSlot.lane v i = s.curSlot.lane v i)) ∧
  (∀ s : State, s.issues [] 0 = true → s.twin s.cur = none →
    exec .vrel s = .next ((s.modCur (fun x => { x with claim := none })).retire))

/-- Vector loads and stores move the elements at their addresses; VCHAIN starts its passes. 09_vector: Vector memory
instructions, 09_vector: Chained element-wise passes. -/
def Obligations.VectorMemoryInstructions : Prop :=
  (∀ (s : State) (d b : Fin 16) (a c : Fin 32) (t u : Bool), s.vecCheck (s.curSlot.mtype == 1) .mtype = 0 →
    let y := s.curSlot.mtype;
    let addrs := fun (step : Word) => (List.range s.curSlot.vl).map (fun i => s.reg a + BitVec.ofNat 64 i * step);
    (∀ s1 l, s.issues [a] 0 = true →
      let w := BitVec.ofNat 64 (s.storedAt s.cur y (s.reg a).toNat);
      s.firstFault s.cur y false (addrs w) = none → s.readElems s.cur y (addrs w) = .ok s1 l →
      exec (.vld d a t) s = .next (s1.modCur (fun x => (x.setElems y d.val l).retire))) ∧
    (∀ s1 l, s.issues [a, c] 0 = true → s.firstFault s.cur y false (addrs (s.reg c)) = none →
      s.readElems s.cur y (addrs (s.reg c)) = .ok s1 l →
      exec (.vlds d a c t u) s = .next (s1.modCur (fun x => (x.setElems y d.val l).retire))) ∧
    (∀ s1, s.issues [a] 0 = true →
      let as := addrs (BitVec.ofNat 64 (vbytes y));
      s.firstFault s.cur y true as = none →
      s.writeElems s.cur y (as.zipIdx.map (fun e => (e.1, s.curSlot.velem y d.val e.2))) = .ok s1 () →
      exec (.vst d a t) s = .next s1.retire) ∧
    (∀ s1, s.issues [a, c] 0 = true → s.firstFault s.cur y true (addrs (s.reg c)) = none →
      s.writeElems s.cur y ((addrs (s.reg c)).zipIdx.map (fun e => (e.1, s.curSlot.velem y d.val e.2))) = .ok s1 () →
      exec (.vsts d a c t u) s = .next s1.retire) ∧
    (s.issues [a] 0 = true → s.curSlot.intrap = false →
      (s.curSlot.vl = s.curSlot.startAt →
        exec (.vgth d a b t) s = .next (s.modCur (fun x => x.clearPix.retire)) ∧
        exec (.vsct d a b t) s = .next (s.modCur (fun x => x.clearPix.retire))) ∧
      (s.curSlot.vl = s.curSlot.startAt + 1 →
        let i := s.curSlot.startAt;
        let v := s.reg a + (s.curSlot.lane b.val i).setWidth 64;
        (∀ s1 e, s.readElem s.cur y v = .ok s1 e → exec (.vgth d a b t) s =
          .next ((s1.modCur (fun x => x.setElem y d.val i e)).modCur (fun x => x.clearPix.retire))) ∧
        (∀ s1, s.writeElem s.cur y v (s.curSlot.velem y d.val i) = .ok s1 () →
          exec (.vsct d a b t) s = .next (s1.modCur (fun x => x.clearPix.retire)))))) ∧
  (∀ (s : State) (a : Fin 32) (t : Bool), s.issues [a] 0 = true → s.curSlot.intrap = false →
    (s.chainCheck ≠ 0 → exec (.vchain a t) s = .next (s.trap 0x12 (BitVec.ofNat 64 s.chainCheck))) ∧
    (s.curSlot.claim = none → s.chainCheck = 1) ∧
    (∀ s1 desc, s.chainCheck = 0 → (s.reg a).toNat % 64 = 0 → s.readBlock s.cur (s.reg a) 16 = .ok s1 desc →
      (chainBad desc = none →
        exec (.vchain a t) s = .next ((s1.modCur (fun x => x.hang (.vchain desc))).push (.vchainGroupComplete s1.cur))) ∧
      (∀ n, chainBad desc = some n → exec (.vchain a t) s = .next (s1.trap 0x13 (BitVec.ofNat 64 n)))))

/-- MLDA, MLDB, MM16, MZERO, MSTC, MCBT and MJOIN enter the matrix queue with what they read. 10_matrix: Commands,
their faults and their queue, 11_grouped: Codebook tables in the weight path. -/
def Obligations.MatrixCommandsEnterTheQueue : Prop :=
  ∀ (s : State) (d : Fin 8) (m : Fin 256) (a b : Fin 32),
    let e := (s.coreAt (coreOfSlot s.cur)).mat.e;
    let c := FMap.get 0 e 16;
    let die := dieOfSlot s.cur;
    (s.takesMatrix [a, b] d m.val = true →
      ((s.reg b).toNat < 2 ^ 36 → (FMap.get 0 e 18).toNat < 2 ^ 32 → ∃ x, exec (.mlda d m a b) s = .next x ∧ s.entered x d 2 (s.reg a) (s.reg b)) ∧
      ((s.reg b).toNat < 2 ^ 45 → (FMap.get 0 e 20).toNat < 2 ^ 32 → badBTile die c (fieldAt (s.reg b).toNat 32 13) = false → ∃ x, exec (.mldb d m a b) s = .next x ∧ s.entered x d 1 (s.reg a) (s.reg b)) ∧
      ((s.reg a).toNat < 2 ^ 48 → (s.reg b).toNat < 2 ^ 28 → fieldAt (s.reg b).toNat 17 11 < cfgAccN c → badBTile die c (fieldAt (s.reg b).toNat 4 13) = false → ∃ x, exec (.mm16 d m a b) s = .next x ∧ s.entered x d 3 (s.reg a) (s.reg b)) ∧
      (s.reg b ≠ 0 → (s.reg a).toNat + (s.reg b).toNat ≤ cfgAccN c → ∃ x, exec (.mzero d m a b) s = .next x ∧ s.entered x d 5 (s.reg a) (s.reg b)) ∧
      ((s.reg a).toNat < 2 ^ 43 → (FMap.get 0 e 22).toNat < 2 ^ 32 → fieldAt (s.reg a).toNat 32 11 < cfgAccN c → ∃ x, exec (.mstc d m a b) s = .next x ∧ s.entered x d 6 (s.reg a) (s.reg b)) ∧
      (∃ x, exec (.mcbt d m a b) s = .next x ∧ s.entered x d 34 (s.reg a) (s.reg b))) ∧
    (s.takesMatrix [a] d m.val = true →
      ((s.reg a).toNat < 2 ^ 17 → ∃ x, exec (.mjoin d m a) s = .next x ∧ s.entered x d 8 (s.reg a) (0)))

/-- MCFG takes, configures and releases the matrix context. 10_matrix: The matrix context, 17_retire: Wipes. -/
def Obligations.MatrixContextTakenAndReleased : Prop :=
  ∀ (s : State) (m : Fin 256) (a : Fin 32), s.issuesE [a] 0 m.val = true →
    let c := coreOfSlot s.cur;
    let q := clusterOfCore c;
    let v := s.reg a;
    let ctx := (s.coreAt c).mat;
    s.matUse c = 0 →
    (v.getLsbD 63 = true → s.ownsMatrix s.cur = true →
      ∃ x, exec (.mcfg m a) s = .next x ∧ s.retiredWith x 0 0 ∧ (x.coreAt c).mat = { ctx with owner := none, paused := none } ∧
        (x.coreAt c).tags = [] ∧ s.memSame x) ∧
    (v.getLsbD 63 = false → (ctx.owner = none ∨ s.ownsMatrix s.cur = true) → s.mcfgCode v = 0 →
      ∃ x, exec (.mcfg m a) s = .next x ∧ s.retiredWith x 0 0 ∧ (x.coreAt c).mat.owner = some s.curSlot.who ∧
        (x.coreAt c).mat.halted = false ∧ (x.coreAt c).mat.lastPart = some (s.slotTask s.cur).part ∧
        FMap.get 0 (x.coreAt c).mat.e 16 = v ∧
        ∀ z, Memory.read x.mem z =
          if ctx.owner = none ∧ ctx.lastPart ≠ none ∧ ctx.lastPart ≠ some (s.slotTask s.cur).part ∧
            ((accBase q + 1024 * cfgAccBase v ≤ z ∧ z < accBase q + 1024 * cfgAccBase v + 1024 * cfgAccN v) ∨
              (bstBase q + 256 * cfgBBase v ≤ z ∧ z < bstBase q + 256 * cfgBBase v + 256 * cfgBN v))
          then 0 else Memory.read s.mem z)

/-- MTILE, MPROG, MGV and MGVB start their engines. 10_matrix: Tile products, 10_matrix: Tiles over several clusters,
11_grouped: MGV and MGVB. -/
def Obligations.TileProductsAndGroupsStart : Prop :=
  ∀ (s : State) (k : Fin 8) (m : Fin 256) (a b : Fin 32),
    let c := coreOfSlot s.cur;
    (s.issuesE [a] 0 m.val = true → s.curSlot.intrap = false → s.ownsMatrix s.cur = true →
      s.mtileCode c (s.runOf k (s.reg a)) (s.coreAt c).mat.halted = 0 → s.matUse c = 0 →
      (s.curSlot.token k).count < 255 →
      ∃ x, exec (.mtile k m a) s = .next x ∧ s.heldOn x .mtile ∧ s.memSame x ∧
        (let r : TileRun := { s.runOf k (s.reg a) with step := s.curSlot.startAt, cmd := s.nextId };
          (x.coreAt c).mat.run = some (r.resume s.curSlot (s.coreAt c).mat) ∧
            ((s.coreAt c).mat.paused = none → (x.coreAt c).mat.run = some r)) ∧
        (x.curSlot.token k).count = (s.curSlot.token k).count + 1 ∧
        x.agenda = s.agenda ++ [.mtileSequencerStep c]) ∧
    (∀ x d, s.issuesE [a] b m.val = true → s.ownsMatrix s.cur = true → (s.reg a).toNat % 64 = 0 →
      s.readBlock s.cur (s.reg a) 8 = .ok x d → x.cur = s.cur →
      ((gdMembers d (dieOfSlot s.cur)).contains c = false →
        exec (.mprog m a b) s = .next (x.wrote b (BitVec.ofNat 64 (2 ^ 63 + 1)))) ∧
      ((gdMembers d (dieOfSlot s.cur)).contains c = true → x.groups = [] → fieldAt d 32 2 = 0 → x.ownsMatrix s.cur = true →
        x.copiesOf x.curSlot.who = [s.cur] → (x.slotTask s.cur).id = x.curSlot.who.task →
        ∃ y, exec (.mprog m a b) s = .next y ∧ y.curSlot.pc = x.curSlot.pc + 4 ∧ (b ≠ 0 → y.curSlot.ready b = true) ∧
          (gdBad d = true ∨ gdMember d (dieOfSlot s.cur) c = false → y.groups = [] ∧ (b ≠ 0 → y.reg b = BitVec.ofNat 64 (2 ^ 63 + 1))) ∧
          (gdBad d = false → gdMember d (dieOfSlot s.cur) c = true → (b ≠ 0 → y.reg b = BitVec.ofNat 64 (fieldAt d 48 16 + d % 4 * 2 ^ 16)) ∧
            ∃ g : Group, y.groups = [g] ∧ g.formed = true ∧ g.gid = fieldAt d 48 16 ∧ g.members = [c])) ∧
      ((gdMembers d (dieOfSlot s.cur)).contains c = true → x.groups = [] → 0 < fieldAt d 32 2 →
        ∃ y, exec (.mprog m a b) s = .next y ∧ y.curSlot.pc = x.curSlot.pc + 4 ∧ (b ≠ 0 → y.curSlot.pending b = true) ∧
          ∃ g : Group, y.groups = [g] ∧ g.formed = false ∧ g.gid = fieldAt d 48 16 ∧
            g.members = gdMembers d (dieOfSlot s.cur) ∧ g.asked = [{ core := c, who := x.curSlot.who, reg := b, desc := d }])) ∧
    (∀ byColumn : Bool, s.issuesE [a, b] 0 m.val = true → s.curSlot.intrap = false → s.speculative s.cur = false →
      s.gvCode byColumn (s.regNat a) (s.regNat b) = 0 → (s.curSlot.token k).count < 255 →
      ∃ x r, exec (if byColumn then .mgvb k m a b else .mgv k m a b) s = .next x ∧ s.heldOn x (.gv false r) ∧ s.memSame x ∧
        r.ra = s.reg a ∧ r.rb = s.reg b ∧ r.token = k.val ∧
        r.queues = (if byColumn then fieldAt (s.curSlot.engReg 34) 40 4 else fieldAt (s.curSlot.engReg 34) 44 4) + 1 ∧
        (x.clusterAt (clusterOfSlot s.cur)).gvWait = (s.clusterAt (clusterOfSlot s.cur)).gvWait ++ [(s.cur, 0)] ∧
        x.agenda = s.agenda ++ [.gvQueueGrant (clusterOfSlot s.cur)])

/-- A matrix command at the head of its queue executes and leaves it. 10_matrix: Loading operands, 10_matrix: The
16×16×16 step, 10_matrix: Zeroing, storing and the accumulator window, 11_grouped: Codebook tables in the weight path.
-/
def Obligations.MatrixCommandsExecute : Prop :=
  ∀ (s : State) (c : Nat) (x : MatCmd), s.matDue c x →
    let s0 := s.dropJoins c;
    let q := clusterOfCore c;
    let asid := (s.taskAt x.who.task).asid;
    let t := x.rb.toNat;
    let mems := fun (y : State) (m : Memory) => s.matLeft y c x ∧ y.mem = m;
    (x.fn = 2 → ∀ s1 vals,
      let f := cfgAfmt x.cfg;
      let es := maskedElems x.ra (strideOf (FMap.get 0 x.regs 18).toNat) (matBytes f) (t % 65536) (fieldAt t 16 16);
      s0.loadTile c asid f x.who.task es x.got = .done s1 vals →
      exec (.mldaExecute c) s = .next ((s1.putA c f (fieldAt t 32 4) es vals).matDone c x)) ∧
    (x.fn = 1 → ∀ s1 vals,
      let f := cfgBfmt x.cfg;
      let es := maskedElems x.ra (strideOf (FMap.get 0 x.regs 20).toNat) (matBytes f) (t % 65536) (fieldAt t 16 16);
      s0.loadTile c asid f x.who.task es x.got = .done s1 vals →
      exec (.mldbExecute c) s = .next ((s1.putB q f (cfgBBase x.cfg + fieldAt t 32 13) es vals).matDone c x)) ∧
    (x.fn = 3 → ∃ y, exec (.mm16Execute c) s = .next y ∧
      mems y (s0.mm16Step c x.cfg (cfgAccBase x.cfg + fieldAt t 17 11) (cfgBBase x.cfg + fieldAt t 4 13) (t % 16)
        (x.ra.toNat % 65536) (fieldAt x.ra.toNat 16 16) (fieldAt x.ra.toNat 32 16)).1.mem) ∧
    (x.fn = 5 → ∃ y, exec (.mzeroExecute c) s = .next y ∧ s.matLeft y c x ∧
      ∀ z, Memory.read y.mem z =
        if accBase q + 1024 * (cfgAccBase x.cfg + x.ra.toNat) ≤ z ∧
          z < accBase q + 1024 * (cfgAccBase x.cfg + x.ra.toNat) + 1024 * t then 0 else Memory.read s.mem z) ∧
    (x.fn = 6 → ∀ s1 fl,
      s0.storeDue c asid (cfgZ x.cfg) x.rb (strideOf (FMap.get 0 x.regs 22).toNat) (x.ra.toNat % 65536)
        (fieldAt x.ra.toNat 16 16) = none →
      s0.storeTile c asid x.who.task x.cfg (cfgAccBase x.cfg + fieldAt x.ra.toNat 32 11) x.rb
        (strideOf (FMap.get 0 x.regs 22).toNat) (x.ra.toNat % 65536) (fieldAt x.ra.toNat 16 16) = .ok (s1, fl) →
      exec (.mstcExecute c) s = .next ((s1.deliverAll x.who (fun y => y.raise fl)).matDone c x)) ∧
    (x.fn = 34 → ∀ n e r a, s.entryAt (dieOfCore c) asid t 1 = some (n, e) → e.codebook = true → x.ra.toNat % 2 = 0 →
      s.translate (dieOfCore c) asid x.ra.toNat (2 * e.tableSize) = some (r, a) → r.r = true →
      (s.home a).inDie (dieOfCore c) = true → s.chunkDue a (2 * e.tableSize) = none →
      s.homeReply a (2 * e.tableSize) true = 0 →
      let blk := (t - e.base * 65536) / 2 / e.blockLen;
      ∃ y, exec (.mcbtExecute c) s = .next y ∧ mems y s.mem ∧
        FMap.find (y.coreAt c).tags (blk % 4) = some (n, blk) ∧
        (y.coreAt c).tbl = ((s.coreAt c).writeTbl (32 * (blk % 4)) (s.homeBytes a (2 * e.tableSize))).tbl)

/-- The tile sequencer readies, completes and starts an attached tile. 10_matrix: Tile products, 12_copy: Follow-ons,
queries and cancellation. -/
def Obligations.TileSequencersGoOn : Prop :=
  ∀ (s : State) (c : Nat),
    (∀ r, (s.coreAt c).mat.run = some r → s.translationHeld (s.taskAt r.who.task).asid = false → r.grouped = false →
      (r.ready = false →
        ∃ x, exec (.mtileSequencerStep c) s = .next x ∧ (x.coreAt c).mat.run = some { r with ready := true } ∧
          x.agenda = s.agenda ++ [.mtileSequencerStep c] ∧ s.memSame x) ∧
      (r.ready = true → r.step = 0 → 0 < r.kb * (r.ti * r.tj) → r.part = r.tj + 1 → r.vals = [] →
        let y := s.tileZero c r;
        let z := y.mm16Step c r.cfg (cfgAccBase r.cfg + r.origin) (cfgBBase r.cfg) 0 (edgeMask r.rows 0) (edgeMask r.cols 0)
          (edgeMask r.depth 0);
        (∀ a, Memory.read y.mem a =
          if r.accum = false ∧ accBase (clusterOfCore c) + 1024 * (cfgAccBase r.cfg + r.origin) ≤ a ∧
            a < accBase (clusterOfCore c) + 1024 * (cfgAccBase r.cfg + r.origin) + 1024 * (r.ti * r.tj)
          then 0 else Memory.read s.mem a) ∧
        ∃ x, exec (.mtileSequencerStep c) s = .next x ∧ x.mem = z.1.mem ∧ x.slots = s.slots ∧
          (x.coreAt c).mat.run = some { r with
            step := 1, part := 0, got := [], vals := [], waits := false, flags := r.flags ||| z.2 } ∧
          x.agenda = s.agenda ++ [.mtileSequencerStep c]) ∧
      (r.ready = true → r.step = r.kb * (r.ti * r.tj) + (if r.stores then r.ti * r.tj else 0) → ∀ k, r.slot = some k →
        s.copiesOf r.who = [k] → (s.slotAt k).hold = some .mtile →
        ∃ x, exec (.mtileSequencerStep c) s = .next x ∧ (x.coreAt c).mat.run = none ∧ (x.slotAt k).hold = none ∧
          (x.slotAt k).pc = (s.slotAt k).pc + 4 ∧ (x.slotAt k).csr = ((s.slotAt k).raise r.flags).csr ∧ s.memSame x)) ∧
    (∀ x : MatCmd, s.matDue c x → x.fn = 4 → (s.coreAt c).mat.run = none → x.copyDone = true → x.skipped = false →
      ∃ y, exec (.cfollowMtileStart c) s = .next y ∧ s.memSame y ∧ y.agenda = s.agenda ++ [.mtileSequencerStep c] ∧
        (y.coreAt c).mat.run =
          some { who := x.who, slot := none, token := x.token, mode := x.ra.toNat, cfg := x.cfg, regs := x.regs, cmd := x.id })

/-- MJOIN, the group watchdog, queue grants, rows and chained passes complete. 10_matrix: Tiles over several clusters,
11_grouped: MGV and MGVB, 09_vector: Chained element-wise passes. -/
def Obligations.GroupsAndGatherEngines : Prop :=
  ∀ (s : State),
    (∀ job gid, (s.groups.find? (fun g => g.formed && g.job == job && g.gid == gid)) = none →
      (∀ e ∈ s.cores, s.joinAtHead e.1 job gid = none ∧ e.2.mat.queue = []) →
      ∃ x, exec (.mjoinComplete job gid) s = .next x ∧ s.memSame x ∧ x.slots = s.slots) ∧
    (∀ job gid g, s.groups.find? (fun g => g.formed && g.job == job && g.gid == gid) = some g →
      exec (.groupWatchdogFire job gid) s = .next ((s.note (.reported 3 g.task)).containedFault g.task 3) ∧
      (∀ h : Nat → MatCmd, s.groups = [g] → g.members.Nodup → (∀ c ∈ g.members, s.joinAtHead c job gid = some (h c) ∧
          (s.coreAt c).mat.halted = false ∧ (s.coreAt c).l1 = [] ∧ (s.taskAt (h c).who.task).st ≠ .done ∧
          FMap.get 0 g.doneTiles c = FMap.get 0 g.doneTiles (g.members.headD 0)) →
        ∃ x, exec (.mjoinComplete job gid) s = .next x ∧ s.memSame x ∧
          (∀ c ∈ g.members, (x.coreAt c).mat.queue =
            (s.coreAt c).mat.queue.filter (fun y => y.id != (h c).id || y.join.isSome)) ∧
          x.groups = if g.members.any (fun c => (h c).ra.getLsbD 16) then [] else [g])) ∧
    (∀ q k r, (s.clusterAt q).gvWait = [(k, 0)] → (s.slotAt k).hold = some (.gv false r) → s.gvUsed q + r.queues ≤ 16 →
      ∃ x, exec (.gvQueueGrant q) s = .next x ∧ (x.slotAt k).hold = some (.gv true r) ∧ (x.clusterAt q).gvWait = [] ∧
        x.agenda = s.agenda ++ [.gvRowComplete k] ∧ s.memSame x) ∧
    (∀ k r, (s.slotAt k).hold = some (.gv true r) → s.translationHeld (s.asidOf k) = false →
      exec (.gvRowComplete k) s = .next ((s.gvRow k r).mirror k) ∧
      ((s.slotAt k).gvRows ≤ r.row → s.copiesOf (s.slotAt k).who = [k] → s.twin k = none →
        ∃ x, exec (.gvRowComplete k) s = .next x ∧ (x.slotAt k).hold = none ∧ (x.slotAt k).pc = (s.slotAt k).pc + 4 ∧
          (x.slotAt k).csr = ((s.slotAt k).raise r.flags).csr ∧ s.memSame x)) ∧
    (∀ k c, (s.slotAt k).hold = some (.vchain c) → s.translationHeld (s.asidOf k) = false →
      chainNel c ≤ (s.slotAt k).startAt → (s.slotAt k).stopped = false → s.twin k = none →
      ∃ x, exec (.vchainGroupComplete k) s = .next x ∧ (x.slotAt k).hold = none ∧
        (x.slotAt k).pc = (s.slotAt k).pc + 4 ∧ s.memSame x)

/-- SEND, SENDX, DGET, DGETL and DARITH enter their copy queue and retire. 12_copy: Engines, queues and tokens,
12_copy: Commands. -/
def Obligations.CopyCommandsEnterTheirQueue : Prop :=
  ∀ (s : State) (k : Fin 8) (m : Fin 256) (a b : Fin 32), s.speculative s.cur = false →
      (fieldAt (s.engNat 42) 12 2 = 0 → s.issuesE [a, b] 0 m.val = true → s.takesCopy (s.copyCmd k 0 (s.reg a) (s.reg b)) = true →
        ∃ x, exec (.send k m a b) s = .next x ∧ s.copies x (s.copyCmd k 0 (s.reg a) (s.reg b))) ∧
      (fieldAt (s.engNat 42) 12 2 ≠ 0 → s.issuesE [a] 0 m.val = true → s.takesCopy (s.copyCmd k 0 (s.reg a) (0)) = true →
        ∃ x, exec (.send k m a b) s = .next x ∧ s.copies x (s.copyCmd k 0 (s.reg a) (0))) ∧
      (s.issuesE [a, b] 0 m.val = true → s.takesCopy (s.copyCmd k 1 (s.reg a) (s.reg b)) = true →
        ∃ x, exec (.sendx k m a b) s = .next x ∧ s.copies x (s.copyCmd k 1 (s.reg a) (s.reg b))) ∧
      (s.issuesE [a, b] 0 m.val = true → s.takesCopy (s.copyCmd k 2 (s.reg a) (s.reg b)) = true →
        ∃ x, exec (.dget k m a b) s = .next x ∧ s.copies x (s.copyCmd k 2 (s.reg a) (s.reg b))) ∧
      (s.issuesE [a, b] 0 m.val = true → s.takesCopy (s.copyCmd k 3 (s.reg a) (s.reg b)) = true →
        ∃ x, exec (.dgetl k m a b) s = .next x ∧ s.copies x (s.copyCmd k 3 (s.reg a) (s.reg b))) ∧
      (arOp (s.engNat 44) ≠ 4 → s.issuesE [a, b] 0 m.val = true → s.takesCopy (s.copyCmd k 4 (s.reg a) (s.reg b)) = true →
        ∃ x, exec (.darith k m a b) s = .next x ∧ s.copies x (s.copyCmd k 4 (s.reg a) (s.reg b))) ∧
      (arOp (s.engNat 44) = 4 → s.issuesE [b] 0 m.val = true → s.takesCopy (s.copyCmd k 4 (0) (s.reg b)) = true →
        ∃ x, exec (.darith k m a b) s = .next x ∧ s.copies x (s.copyCmd k 4 (0) (s.reg b)))

/-- WAIT, TOKQ, ENGW, ENGR, CQUERY, CCANCEL and CFOLLOW act on tokens, registers and queues. 12_copy: Engines, queues
and tokens, 12_copy: Engine registers, 12_copy: Follow-ons, queries and cancellation. -/
def Obligations.TokensEngineRegistersAndQueries : Prop :=
  ∀ (s : State) (k : Fin 8) (m : Fin 256) (e : Fin 64) (a b : Fin 32),
    let c := coreOfSlot s.cur;
    let tok := s.curSlot.token k;
    (s.issuesE [] 0 m.val = true → exec (.wait m) s = .next s.retire) ∧
    (s.issuesE [a] b m.val = true → (s.reg a).toNat < 4 → exec (.tokq k m a b) s =
      .next ((if (s.reg a).getLsbD 0 then s.modCur (fun x => x.setToken k { count := tok.count }) else s).wrote b
        (BitVec.ofNat 64 (if (s.reg a).getLsbD 1 then tok.addr else
          tok.code * 2 ^ 56 + (if tok.kind = .none then 0 else if tok.kind = .neg then 1 else 2) * 2 ^ 54 +
            (if tok.dup then 1 else 0) * 2 ^ 53 + (if tok.more then 1 else 0) * 2 ^ 52 + tok.box * 2 ^ 32 + tok.count)))) ∧
    (s.issuesE [a] 0 m.val = true →
      (slotEng e.val = true → exec (.engw e m a) s =
        .next (s.modCur (fun x => { x with eng := FMap.set e.val (s.reg a) x.eng })).retire) ∧
      (17 ≤ e.val → e.val ≤ 23 → s.ownsMatrix s.cur = true → exec (.engw e m a) s =
        .next (s.modCore c (fun x => { x with mat := { x.mat with e := FMap.set e.val (s.reg a) x.mat.e } })).retire)) ∧
    (s.issuesE [] b m.val = true →
      (slotEng e.val = true → exec (.engr e m b) s = .next (s.wrote b (FMap.get 0 s.curSlot.eng e.val))) ∧
      (16 ≤ e.val → e.val ≤ 23 → s.ownsMatrix s.cur = true →
        exec (.engr e m b) s = .next (s.wrote b (FMap.get 0 (s.coreAt c).mat.e e.val)))) ∧
    (s.issuesE [a] b m.val = true → s.speculative s.cur = false →
      let all := (FMap.get [] (s.coreAt c).queues ((s.reg a).toNat % 8)).filterMap (fun q =>
        match q with | .cmd id => s.cmds.find? (fun y => y.id == id) | .join _ => none);
      let mine := all.filter (fun y => y.who == s.curSlot.who && y.token == k.val);
      exec (.cquery k m a b) s = .next (s.wrote b (BitVec.ofNat 64 (mine.length + all.length * 2 ^ 8 +
        (mine.head?.map (fun y => y.settled.length)).getD 0 * 2 ^ 16 + (mine.head?.map (fun y => y.nbox)).getD 0 * 2 ^ 32)))) ∧
    (s.issuesE [a] 0 m.val = true → s.speculative s.cur = false →
      let n := if (s.reg a).toNat % 256 = 0 then 255 else (s.reg a).toNat % 256;
      ∃ x, exec (.ccancel k m a) s = .next x ∧ s.retiredWith x 0 0 ∧ s.memSame x ∧
        x.cmds = s.cmds.map (fun y =>
          if y.who = s.curSlot.who ∧ y.token = k.val ∧ bitAt n y.queue then { y with cancelled := true } else y) ∧
        x.agenda = s.agenda ++ ((List.range 8).filter (bitAt n)).map (fun q => .engineBoxIssue c q)) ∧
    (s.takesMatrix [a, b] k m.val = true → s.speculative s.cur = false →
      s.mtileCode c (s.runOf k (s.reg a)) false = 0 →
      ∃ x, exec (.cfollow k m a b) s = .next x ∧ s.entered x k 4 (s.reg a) (s.reg b) ∧
        x.agenda = s.agenda ++ [.cfollowMtileStart c] ∧
        ∀ l, FMap.find (s.coreAt c).lastCopy ((s.reg b).toNat % 8) = some l → s.cmds.any (fun y => y.id == l.1) = true →
          (x.coreAt c).mat.queue.getLast?.map (fun y => (y.follow, y.copyDone)) = some (some l.1, false))

/-- XREQ opens a ticket, XPOLL shows it and XRES takes its result; each marks its register. 09_vector: The transform
coprocessor, 06_scalar: Full, empty and pending registers. -/
def Obligations.TransformTickets : Prop :=
  ∀ (s : State) (k : Fin 8) (m : Fin 256) (a b : Fin 32), s.issuesE [a] b m.val = true →
    let q := clusterOfSlot s.cur;
    let ts := (s.clusterAt q).tickets;
    (∀ d, s.xfDescriptor s.cur (s.reg a).toNat = (0, d) → (s.clusterAt q).xfm.length < 8 → (s.curSlot.token k).count < 255 →
      (∃ i, i < 16 ∧ FMap.find ts i = none) →
      ∃ x i gen r, exec (.xreq k m a b) s = .next x ∧ i < 16 ∧ FMap.find ts i = none ∧ gen < 4096 ∧
        s.marks x b (BitVec.ofNat 64 (i + gen * 16)) ∧ (x.curSlot.token k).count = (s.curSlot.token k).count + 1 ∧
        FMap.find (x.clusterAt q).tickets i = some { gen := gen, who := s.curSlot.who, token := k.val } ∧
        (x.clusterAt q).xfm = (s.clusterAt q).xfm ++ [r] ∧ r.entry = i ∧ r.desc = d ∧ r.asid = s.asidOf s.cur ∧ r.next = 0) ∧
    (∀ n d, s.xfDescriptor s.cur (s.reg a).toNat = (n, d) → n ≠ 0 →
      ∃ x, exec (.xreq k m a b) s = .next x ∧ s.marks x b (BitVec.ofNat 64 (2 ^ 62 + n)) ∧ x.clusters = s.clusters) ∧
    (∀ d, s.xfDescriptor s.cur (s.reg a).toNat = (0, d) →
      (8 ≤ (s.clusterAt q).xfm.length ∨ ∀ i, i < 16 → FMap.find ts i ≠ none) →
      ∃ x, exec (.xreq k m a b) s = .next x ∧ s.marks x b (BitVec.ofNat 64 (2 ^ 63)) ∧ x.clusters = s.clusters) ∧
    (∀ i t, s.ticketOf k.val (s.reg a).toNat = some (i, t) →
      (∃ x, exec (.xpoll k m a b) s = .next x ∧ x.clusters = s.clusters ∧ s.marks x b (match t.st with
        | .queued => 0 | .running => 1 | .done _ => 2 | .faulted _ => 3)) ∧
      (∀ v, (t.st = .done v ∨ t.st = .faulted v) → ∃ x, exec (.xres k m a b) s = .next x ∧ s.marks x b v ∧
        FMap.find (x.clusterAt q).tickets i = none) ∧
      ((t.st = .queued ∨ t.st = .running) →
        ∃ x, exec (.xres k m a b) s = .next x ∧ (b ≠ 0 → x.curSlot.pending b = true) ∧ x.curSlot.pc = s.curSlot.pc + 4 ∧
          s.memSame x ∧ x.msgs = s.msgs ∧
          ∃ t', FMap.find (x.clusterAt q).tickets i = some t' ∧ t'.waiters = t.waiters ++ [(s.curSlot.who, b)])) ∧
    (s.ticketOf k.val (s.reg a).toNat = none →
      (∃ x, exec (.xpoll k m a b) s = .next x ∧ s.marks x b (BitVec.ofNat 64 (2 ^ 63)) ∧ x.clusters = s.clusters) ∧
      (∃ x, exec (.xres k m a b) s = .next x ∧ s.marks x b (BitVec.ofNat 64 (2 ^ 63)) ∧ x.clusters = s.clusters))

/-- The transform port runs checksums, both slot formats and codebook building, block by block. 09_vector: The transform
coprocessor, 09_vector: Fixed-rate formats. -/
def Obligations.TransformRequestsRun : Prop :=
  ∀ (s : State) (q : Nat) (r : XfmReq),
    let d := r.desc;
    let i := r.next;
    let whole := s.portAt q r (xfSrcLen d);
    let blk := s.portAt q r (xfBlock d);
    let slt := s.portAt q r (xfSlot d);
    let slot := xfDst d + i * xfSlot d;
    let counts := fun (esc : Nat) => (i + 1) % 2 ^ 32 + esc % 2 ^ 32 * 2 ^ 32;
    (∀ bs, s.portDue q r 0 → whole.portRead q r.asid (xfSrc d) (xfSrcLen d) = some bs →
      exec (.xfmCrc q) s = .next (whole.endRequest q r (.done (crc32c (xfParam d % 2 ^ 32) bs)))) ∧
    (∀ raw, s.portDue q r 1 → i < xfCount d → blk.portRead q r.asid (xfSrc d + i * xfBlock d) (xfBlock d) = some raw →
      (i + 1) * xfSlot d ≤ xfDstCap d → r.esc + raw.length ≤ xfParam d → blk.portFault q r.asid slot (xfSlot d) = 0 →
      blk.portFault q r.asid (xfAux d + r.esc) raw.length = 0 →
      match frcEncode (xfSlot d) raw with
      | some bs => State.portGoesOn (exec (.xfmFrc q) s) q r (blk.portWrite q r.asid slot bs) r.esc (counts r.esc)
      | none => State.portGoesOn (exec (.xfmFrc q) s) q r ((blk.portWrite q r.asid (xfAux d + r.esc) raw).portWrite q r.asid slot
          (escapeSlot (xfSlot d) r.esc)) (r.esc + raw.length) (counts (r.esc + raw.length))) ∧
    (∀ n raw, match frcEncode n raw with
      | some bs => frcDecode n raw.length (leNat bs) = .ok raw
      | none => True) ∧
    (∀ bs out, s.portDue q r 2 → i < xfCount d → slt.portRead q r.asid (xfSrc d + i * xfSlot d) (xfSlot d) = some bs →
      bitAt (leNat bs) 15 = false → frcDecode (xfSlot d) (xfBlock d) (leNat bs) = .ok out →
      (i + 1) * out.length ≤ xfDstCap d → slt.portFault q r.asid (xfDst d + i * out.length) out.length = 0 →
      State.portGoesOn (exec (.xfmFrd q) s) q r (slt.portWrite q r.asid (xfDst d + i * out.length) out) 0
        ((i + 1) * xfBlock d)) ∧
    (∀ raw bs, s.portDue q r 3 → i < xfCount d → blk.portRead q r.asid (xfSrc d + i * xfBlock d) (xfBlock d) = some raw →
      ebEncode (xfFmt d) (xfSlot d) (fp64.finite (xfParam d)) (elemsOf (xfElemBytes d) (xfElems d) raw) = some bs →
      (i + 1) * xfSlot d ≤ xfDstCap d → blk.portFault q r.asid slot (xfSlot d) = 0 →
      State.portGoesOn (exec (.xfmEbc q) s) q r (blk.portWrite q r.asid slot bs) r.esc (counts r.esc)) ∧
    (∀ bs out, s.portDue q r 4 → i < xfCount d → slt.portRead q r.asid (xfSrc d + i * xfSlot d) (xfSlot d) = some bs →
      bitAt (leNat bs) 15 = false →
      ebDecode (xfFmt d) (xfElemBytes d) (xfSlot d) (xfElems d) (fp64.finite (xfParam d)) (leNat bs) = .ok out →
      (i + 1) * out.length ≤ xfDstCap d → slt.portFault q r.asid (xfDst d + i * out.length) out.length = 0 →
      State.portGoesOn (exec (.xfmEbd q) s) q r (slt.portWrite q r.asid (xfDst d + i * out.length) out) 0
        ((i + 1) * xfBlock d)) ∧
    (∀ raw, s.portDue q r 5 → i < xfCount d → blk.portRead q r.asid (xfSrc d + i * xfBlock d) (xfBlock d) = some raw →
      let n := xfCbb d + 2;
      let len := xfElems d * n / 8;
      let aux := xfAux d + i * 2 ^ (n + 1);
      let z := ctbBlock (if xfTfmt d then fp16 else bf16) n (elemsOf 4 (xfElems d) raw);
      (i + 1) * len ≤ xfDstCap d → blk.portFault q r.asid (xfDst d + i * len) len = 0 →
      blk.portFault q r.asid aux (2 ^ (n + 1)) = 0 →
      State.portGoesOn (exec (.xfmCtb q) s) q r ((blk.portWrite q r.asid (xfDst d + i * len) (leBytes len z.2)).portWrite q r.asid
        aux (z.1.flatMap (leBytes 2))) 0 (i + 1)) ∧
    (∀ c, crcBits 1 c = if c % 2 = 1 then (c / 2) ^^^ 0x82F63B78 else c / 2) ∧
    crc32c 0 [0x31, 0x32, 0x33, 0x34, 0x35, 0x36, 0x37, 0x38, 0x39] = 0xE3069283

/-- Boxes are read, written, combined and settled as their command says. 12_copy: Commands, 12_copy: Directed reads,
12_copy: Destination arithmetic. -/
def Obligations.BoxesLandAndSettle : Prop :=
  ∀ (s : State) (box : Nat) (b : Box), s.findBox box = some b →
    (∀ p, s.memoryWf → b.pieces = [p] → b.snap = [] → b.arrive = none → b.landed = [] → s.landsOn b.asid p = true →
      p.off = 0 → p.len = b.data.length → p.ecg = 0 → (s.home p.spa).outside = false →
      ((s.home p.spa).win = .lm ∨ (s.home p.spa).win = .dram) → (s.twinKey (s.home p.spa).key).isNone = true →
      ∃ x, exec (.boxWrite box) s = .next x ∧ Memory.readList x.mem (s.home p.spa).key p.len = b.data ∧
        (s.under (s.home p.spa) p.len).memOutside x (s.home p.spa).key p.len) ∧
    (∀ c, s.findOwn b.cmd = some c → c.fn ≠ 3 → b.outcome = 0 → b.dup = false →
      (s.boxes.filter (fun x => x.id != box)).any (fun x => x.cmd == c.id && x.num == b.num) = false →
      (FMap.get [] (s.coreAt c.core).queues c.queue).contains (.cmd c.id) = true →
      ∃ x c', exec (.boxAck box) s = .next x ∧ s.memSame x ∧ x.findBox box = none ∧ x.findOwn c.id = some c' ∧
        c'.settled.contains b.num = true ∧ c'.flags = c.flags ||| b.flags ∧
        x.agenda = s.agenda ++ [.engineBoxIssue c.core c.queue]) ∧
    (s.cutOff b = false → b.src.any (s.pieceWaits false) = false →
      b.src.all (fun p => s.pieceCode b.asid false p == 0) = true →
      let y := (b.src.foldl (fun s p => s.chargeBytes b.who.task (s.home p.spa) p.len) s).modBox box
        (fun x => { x with data := s.sourceBytes b });
      exec (.directedReadOwner box) s = .next
        (if b.src.any (fun p => (s.home p.spa).outside) then y.push (.directedReadDelivery box) else y.forward box)) ∧
    (s.cutOff b = true → exec (.directedReadOwner box) s = .next (s.push (.boxAck box))) ∧
    (∀ c ps, s.findCmd b.cmd = some c →
      s.boxes.any (fun x => x.cmd == b.cmd && x.recip == b.recip && (c.fn == 3 || x.item == b.item) && x.num < b.num) = false →
      c.stopped.contains (1 + b.item) = false → s.cutOff b = false → fieldAt b.recip 112 4 < 14 →
      (s.boxAway b).isSome = false → ((c.recipSet b).isSome = true ∨ s.translationHeld b.rasid = false) →
      s.dieCode (fieldAt b.recip 112 4) = 0 → (s.dieAt (fieldAt b.recip 112 4)).lost = false →
      bitAt b.recip 62 = false → b.snap = [] → b.landed = [] → s.recipSide c b (b.recip % 2 ^ 48) 0 = .ok (ps, none, none) →
      ps.all (s.landsOn b.asid) = true → ps.any s.pieceTableDue = false →
      exec (.directedReadDelivery box) s = .next ((s.putAll { b with arrive := none } ps b.data).boxDone b.id)) ∧
    (∀ p, s.memoryWf → b.pieces = [p] → b.tees = false → b.arrive = none → s.pieceCode b.asid false p = 0 →
      s.landsOn b.asid p = true → (arApply b.e44 (s.pieceBytes p) (b.dataFor p)).1.length = p.len → p.ecg = 0 →
      (s.home p.spa).outside = false → ((s.home p.spa).win = .lm ∨ (s.home p.spa).win = .dram) →
      (s.twinKey (s.home p.spa).key).isNone = true →
      ∃ x, exec (.darithPacketApply box) s = .next x ∧ (s.under (s.home p.spa) p.len).memOutside x (s.home p.spa).key p.len ∧
        Memory.readList x.mem (s.home p.spa).key p.len = (arApply b.e44 (s.pieceBytes p) (b.dataFor p)).1)

/-- Engines look at the head of their queue; parity, ordered banks and task items take their packets. 12_copy:
Engines, queues and tokens, 12_copy: Commands, 12_copy: Erasure coding, 12_copy: Destination arithmetic, 02_launch:
Items for tasks that are not running. -/
def Obligations.EnginesParityAndOrderedBanks : Prop :=
  ∀ (s : State),
    (∀ core queue id rest c, FMap.get [] (s.coreAt core).queues queue = .cmd id :: rest → s.findCmd id = some c →
      ∃ y : State, exec (.engineBoxIssue core queue) s = .next (y.engineMove c) ∧ y.slots = s.slots ∧ y.mem = s.mem ∧
        FMap.get [] (y.coreAt core).queues queue = .cmd id :: rest ∧ y.cmds = s.cmds ∧ y.boxes = s.boxes) ∧
    (∀ core queue id rest c, FMap.get [] (s.coreAt core).queues queue = .cmd id :: rest → s.findCmd id = some c →
      c.prepared = true → c.cancelled = false → (s.taskAt c.who.task).saving = none →
      (c.set.isNone && s.translationHeld c.asid) = false →
      c.waits.any (fun n => (s.coreAt c.core).mat.queue.any (fun x => x.id == n)) = false →
      c.next < c.nbox → c.next < c.floor + 64 → c.stopped.contains 0 = false → c.settled.contains c.next = false →
      s.boxes.any (fun b => b.cmd == c.id && b.num == c.next) = false →
      let y := s.modCore core (fun x => { x with queues := FMap.set queue (.cmd id :: rest) x.queues });
      (c.fn = 2 ∨ (c.fn = 3 ∧ c.stopped.contains (1 + c.entryOf c.next) = false) →
        exec (.engineBoxIssue core queue) s = .next (y.beginRead c)) ∧
      (c.fn ≠ 2 → c.fn ≠ 3 → exec (.engineBoxIssue core queue) s = .next (y.beginPush c) ∧
        (∀ b, c.isOpen = false → y.makeBox c c.next = .ok b → b.src.any (y.pieceWaits false) = false →
          y.storesInto c b.src = false → b.src.all (fun p => y.pieceCode c.asid false p == 0) = true →
          let z := b.src.foldl (fun z p => z.chargeBytes c.who.task (z.home p.spa) p.len) y;
          exec (.engineBoxIssue core queue) s = .next ((z.emit { b with data := y.sourceBytes b }).nextBox c)))) ∧
    (∀ (u : Parity) o dl, s.memoryWf → s.parity.find? (fun v => v.id == u.id) = some u → u.deltas = [(o, dl)] →
      let g := FMap.get {} (s.dieAt u.die).ecg u.group;
      let h := s.home (s.chunkSpa u.die u.group (g.k + u.p) u.chunk);
      h.outside = false → s.dieCode h.die = 0 →
      ∃ x, exec (.parityUpdate u.id) s = .next x ∧ s.memOutside x (h.key + o) 1 ∧
        Memory.read x.mem (h.key + o) =
          Memory.read s.mem (h.key + o) ^^^ BitVec.ofNat 8 (gfMul (if u.p = 0 then 1 else 2 ^ (u.member % 8)) dl.toNat)) ∧
    (∀ box b p ps, s.findBox box = some b → b.pieces = p :: ps →
      let tag := arTag b.e44;
      let k := s.bankAt b.bank;
      let here := k.buf.contains box;
      let twin := (s.bufferedIn b.bank tag).any (fun x => x.id != box && x.key == b.key);
      let rel := match k.nextOf tag with | none => 1 | some n => keyAgainst b.key n;
      let fresh := here = false ∧ twin = false;
      ((s.home p.spa).outside = true → exec (.orderedPacketArrival box) s = .next (s.orderedAway b)) ∧
      ((s.home p.spa).outside = false → s.dieCode (bankDie b.bank) ≠ 0 →
        ∃ x, exec (.orderedPacketArrival box) s = .next x ∧ s.memSame x ∧ x.agenda = s.agenda ++ [.boxAck box] ∧
          (∀ y, x.findBox box = some y → y.outcome = s.dieCode (bankDie b.bank))) ∧
      ((s.home p.spa).outside = false → s.dieCode (bankDie b.bank) = 0 → s.openDue b = true →
        exec (.orderedPacketArrival box) s = .next (s.push (.orderedPacketArrival box))) ∧
      ((s.home p.spa).outside = false → s.dieCode (bankDie b.bank) = 0 → s.openDue b = false →
        (here = false → (rel = 2 ∨ twin = true) → exec (.orderedPacketArrival box) s = .next
          ((s.modBox box (fun b => { b with dup := true })).push (.boxAck box))) ∧
        (rel = 1 → fresh → k.buf.length < 64 → exec (.orderedPacketArrival box) s = .next
          ((s.modBank b.bank (fun k => { k with buf := k.buf ++ [box] })).push (.orderedHeldAck box))) ∧
        (rel = 1 → fresh → 64 ≤ k.buf.length → exec (.orderedPacketArrival box) s =
          .next (s.after (acNs 64) (.orderedPacketResend box))) ∧
        (rel ≠ 0 → here = true → exec (.orderedPacketArrival box) s = .next s) ∧
        (rel = 0 → fresh → s.packetWaits b = true → exec (.orderedPacketArrival box) s = .next
          (((s.modBank b.bank (fun k => { k with buf := k.buf ++ [box] })).askChunks b.pieces).after (acNs 64)
            (.orderedPacketArrival box))) ∧
        (rel = 0 → (here = true ∨ twin = false) → s.packetWaits b = false →
          let y := (s.modBank b.bank (fun k => { k with
            buf := k.buf.filter (fun x => x != b.id), ctx := FMap.set tag { key := some b.nextKey } k.ctx })).applyPacket b;
          y.bufferedIn b.bank tag = [] → exec (.orderedPacketArrival box) s = .next y))) ∧
    (∀ box, exec (.orderedPacketResend box) s = .next (s.push (.orderedPacketArrival box))) ∧
    (∀ box b, s.findBox box = some b →
      let y := s.modBox box (fun x => { x with held := (s.bankAt b.bank).buf.contains box });
      (∀ c, s.findOwn b.cmd = some c → exec (.orderedHeldAck box) s = .next (y.push (.engineBoxIssue c.core c.queue))) ∧
      (s.findOwn b.cmd = none → exec (.orderedHeldAck box) s = .next y)) ∧
    (∀ box b, s.findBox box = some b → b.pieces.any (fun p => (s.home p.spa).outside) = false →
      (s.dieCode (bankDie b.bank) = 0 → (s.dieAt (bankDie b.bank)).lost = false →
        ∃ x, exec (.darithOpenPacket box) s = .next x ∧
          (x.bankAt b.bank).nextOf (arTag b.e44) = some (arRound b.e44, 0, 0) ∧
          x.bufferedIn b.bank (arTag b.e44) = [] ∧ s.memSame x ∧ x.agenda.getLast? = some (.boxAck box)) ∧
      (s.dieCode (bankDie b.bank) = 0 → (s.dieAt (bankDie b.bank)).lost = true →
        exec (.darithOpenPacket box) s = .next (s.after (acNs 64) (.darithOpenPacket box)))) ∧
    (∀ box b c r col n rest, s.findBox box = some b → s.findCmd b.cmd = some c → (s.boxAway b).isSome = false →
      s.changesDue = false → b.arrive = none → s.parity.any (fun u => u.box == box) = false →
      c.dkind = 1 → FMap.find c.claims 0 = none → c.rows b.num = (r, col, n) :: rest →
      let id := c.e 46 / 2 ^ 32;
      let i := fieldAt (c.e 42) 16 9 % 16;
      let fate := s.itemFate id 1 i (fieldAt (c.e 42) 16 9 % 32) (c.rlen * c.nrow);
      let fixed := fun (m : Nat) => s.modCmd c.id (fun c => { c with claims := FMap.set 0 m c.claims });
      (fate = .staged →
        let y := (fixed 1).modStaged id i (fun g => { item := some (c.id, []), spa := g.spa });
        exec (.taskItemDelivery box) s = .next ((((y.placeInput id i).getD y).stageBox id i c.id b.num c.perItem
          (r * c.rlen + col) b.data).push (.boxAck box))) ∧
      (fate = .duplicate → exec (.taskItemDelivery box) s = .next
        (((fixed 2).modBox box (fun b => { b with dup := true })).push (.boxAck box))) ∧
      (∀ code, fate = .refused code → exec (.taskItemDelivery box) s = .next ((fixed 3).boxOut box code (s.freeAddr box) false)))

/-- SPAWN checks a declaration and creates the child; TDONE ends its slot and at last its task. 06_scalar: Task
instructions, 01_work: The task declaration block, 02_launch: Tasks created by running tasks, 01_work: Task states. -/
def Obligations.SpawnAndTdone : Prop :=
  (∀ (s s1 s2 : State) (d a : Fin 32) (t : Task) (n l : Nat), s.issuesHead [a] d = true → s.boundTask s.cur = some t →
    (s.reg a).toNat % 64 = 0 → s.readBlock s.cur (s.reg a) 8 = .ok s1 n →
    s1.readTiles s.cur (declOf n) = .ok s2 l →
    let b := declOf n;
    let raw := tilesOf l (b.nin + b.nout);
    let c := t.creator (coreOfSlot s.cur);
    let seq := (s2.partAt t.part).seq % 2 ^ 26;
    let id := t.part * 2 ^ 26 + seq;
    s2.cur = s.cur → s2.speculative s.cur = false → t.st ≠ .speculative →
    (s2.declCheck c n raw ≠ 0 → exec (.spawn d a) s = .next (s2.trap 0x0F (BitVec.ofNat 64 (s2.declCheck c n raw)))) ∧
    (s2.declCheck c n raw = 0 → ((s2.partAt t.part).cfg.energy = 0 ∨ (s2.partAt t.part).cfg.energy < b.energy) →
      exec (.spawn d a) s = .next (s2.trap 0x10 (BitVec.ofNat 64 b.energy))) ∧
    (s2.declCheck c n raw = 0 → (s2.partAt t.part).cfg.energy ≠ 0 → b.energy ≤ (s2.partAt t.part).cfg.energy → s2.liveTasks t.part < 4096 →
      s2.pkg.triggers.length < 1024 → b.kind ≠ 2 →
      s2.allClean = true → s2.postsLeft (fun _ _ => true) = false → s2.findTask id = none →
      ∃ x u, exec (.spawn d a) s = .next x ∧ (d ≠ 0 → x.reg d = BitVec.ofNat 64 id) ∧ (∀ q, q ≠ d → x.reg q = s2.reg q) ∧
        x.curSlot.pc = s2.curSlot.pc + 4 ∧ x.findTask id = some u ∧ u.decl = b ∧ u.st = .queued ∧ u.parent = some t.id ∧
        u.tilesIn = (raw.take b.nin).map tileOf ∧ u.tilesOut = (raw.drop b.nin).map tileOf ∧ u.domain = b.joins c ∧
        u.job = t.job ∧ u.asid = t.asid ∧ u.part = t.part ∧ s2.memSame x ∧
        (x.partAt t.part).cfg.energy = (s2.partAt t.part).cfg.energy - b.energy ∧
        x.agenda = s2.agenda ++ [.stagingFetchComplete id b.nin])) ∧
  (∀ (s : State) (n : Fin 4096) (t : Task), s.boundTask s.cur = some t → s.twin s.cur = none →
    (s.coreAt (coreOfSlot s.cur)).journal.all (fun e => e.2.slot != s.cur) = true →
    (∀ j, j ∈ s.slotsOf t.id → j ≠ s.cur → (s.slotAt j).ended = false →
      ∃ x, exec (.tdone n) s = .next x ∧ x.curSlot.ended = true ∧ x.curSlot.pc = s.curSlot.pc + 4 ∧ x.curSlot.pend = [] ∧
        x.curSlot.intrap = false ∧ x.curSlot.claim = none ∧ x.curSlot.g = s.curSlot.g ∧ s.memSame x ∧
        (x.taskAt t.id).st = t.st ∧ (x.taskAt t.id).status = t.status ||| n.val) ∧
    ((∀ j, j ∈ s.slotsOf t.id → j ≠ s.cur → (s.slotAt j).ended = true) →
      ∃ x, exec (.tdone n) s = .next (x.tryCommit t.id) ∧ x.curSlot.ended = true ∧ x.curSlot.pc = s.curSlot.pc + 4 ∧
        x.curSlot.pend = [] ∧ x.curSlot.intrap = false ∧ x.curSlot.claim = none ∧ s.memSame x ∧
        (x.taskAt t.id).st = .done ∧ (x.taskAt t.id).status = t.status ||| n.val))

/-- CDOPEN opens a domain with its preserves, CDPRES preserves more, CDCLOSE drops it. 16_recovery: Opening,
preserving and closing. -/
def Obligations.DomainsOpenPreserveAndClose : Prop :=
  ∀ (s : State) (d a : Fin 32) (n : Fin 256) (t : Task), s.issuesHead [a] d = true → s.boundTask s.cur = some t →
    (∀ s1 s2 e l u, (s.reg a).toNat % 64 = 0 → s.readBlock s.cur (s.reg a) 8 = .ok s1 e →
      s1.readPres s.cur (fieldAt e 128 48) (fieldAt e 176 8) = .ok s2 l → s2.cur = s.cur → s2.boundTask s.cur = some u →
      let es := tilesOf l (fieldAt e 176 8);
      let id := fieldAt e 48 16;
      (s2.openCheck s.cur e es ≠ 0 →
        exec (.cdopen d a) s = .next (s2.wrote d (BitVec.ofNat 64 (2 ^ 63 + s2.openCheck s.cur e es)))) ∧
      (s2.openCheck s.cur e es = 0 → s2.presBad s.cur es = none →
        ∃ x y, exec (.cdopen d a) s = .next x ∧ (d ≠ 0 → x.reg d = 0) ∧ x.curSlot.pc = s2.curSlot.pc + 4 ∧
          x.findDomain u.job id = some y ∧ y.level = fieldAt e 64 3 ∧ y.opener = some u.id ∧ y.parent = u.chain.head? ∧
          y.reentry = fieldAt e 0 48 ∧ y.wdog = fieldAt e 192 32 ∧ y.rollbacks = 0 ∧ y.preserves.length = es.length ∧
          (x.slotTask s.cur).chain = id :: u.chain ∧ s2.memSame x ∧
          (x.partAt u.part).pused = (s2.partAt u.part).pused + presBytes es)) ∧
    (∀ s1 l, s.readPres s.cur (s.reg a).toNat (n.val + 1) = .ok s1 l → s1.cur = s.cur →
      let es := tilesOf l (n.val + 1);
      (es.any (fun e => presReserved e || presLen e == 0) = true →
        exec (.cdpres d a n) s = .next (s1.wrote d 0x8000000000000001)) ∧
      (es.any (fun e => presReserved e || presLen e == 0) = false → s1.presCheck s.cur es = 0 → s1.presBad s.cur es = none →
        exec (.cdpres d a n) s = .next ((s1.preserve s.cur ((s1.slotTask s.cur).chain.headD 0) es).wrote d 0))) ∧
    (2 ^ 16 ≤ (s.reg a).toNat → exec (.cdclose d a) s = .next (s.wrote d 0x8000000000000001)) ∧
    ((s.reg a).toNat < 2 ^ 16 → t.chain.head? ≠ some (s.reg a).toNat →
      exec (.cdclose d a) s = .next (s.wrote d 0x8000000000000006)) ∧
    (∀ y j, t.chain.head? = some (s.reg a).toNat → (s.reg a).toNat < 2 ^ 16 →
      s.findDomain t.job (s.reg a).toNat = some y → y.opener = some t.id → s.findJob t.job = some j →
      s.membersLeft t.job (s.reg a).toNat = false → s.allClean = true → s.postsLeft (fun _ _ => true) = false →
      ∃ x, exec (.cdclose d a) s = .next x ∧ (d ≠ 0 → x.reg d = 0) ∧ x.curSlot.pc = s.curSlot.pc + 4 ∧
        x.findDomain t.job (s.reg a).toNat = none ∧ s.memSame x ∧
        (x.slotTask s.cur).chain = t.chain.filter (fun e => e != (s.reg a).toNat) ∧
        (2 ≤ y.code → (x.coreAt (coreOfSlot s.cur)).l1 = []))

/-- PAIR and UNPAIR make and end a pair; RCOMMIT enters a range commit; ASWAP stages a program. 15_interrupts: Checked
pairs, 04_placement: Committing a range set, 03_accord: Installing and swapping programs. -/
def Obligations.PairsRangeCommitsAndPolicies : Prop :=
  (∀ (s : State) (d : Fin 32) (t : Task), s.issuesHead [] d = true → s.boundTask s.cur = some t →
    (t.paired = true → exec (.pair d) s = .next (s.wrote d 1)) ∧
    (t.paired = false → s.pairStatus s.cur ≠ 0 →
      exec (.pair d) s = .next (s.wrote d (BitVec.ofNat 64 (2 ^ 63 + s.pairStatus s.cur)))) ∧
    (t.paired = false → s.pairStatus s.cur = 0 →
      exec (.pair d) s = .next (((s.wrote d 0).modTask t.id (fun t => { t with paired := true })).after 1
        (.preemptionRequest t.id))) ∧
    (1 < t.decl.gang → s.pairStatus s.cur = 1) ∧
    (t.paired = false → exec (.unpair d) s = .next (s.wrote d 1)) ∧
    (t.paired = true → s.curSlot.who.secondary = false →
      (s.coreAt (s.pairCore s.cur)).items.takeWhile (fun i => i.j != s.curSlot.who.j) = [] →
      ∃ x, exec (.unpair d) s = .next x ∧ (d ≠ 0 → x.reg d = 0) ∧ x.curSlot.pc = s.curSlot.pc + 4 ∧
        (x.taskAt t.id).paired = false ∧ (x.coreAt (s.pairCore s.cur)).items = [] ∧
        (∀ k, k ∈ s.slotsOf t.id → (s.slotAt k).who.secondary = true →
          (x.slotAt k).stopped = true ∧ (x.slotAt k).bind = (s.slotAt k).bind) ∧ s.memSame x)) ∧
  (∀ (s s1 : State) (d a : Fin 32) (m : Fin 64) (k : Bool) (n : Fin 256) (w : Nat), s.issuesHead [a] d = true →
    ((s.reg a).toNat % 32 = 0 → s.readBlock s.cur (s.reg a) (4 * (m.val + 1)) = .ok s1 w →
      let image := entriesIn w (m.val + 1);
      let r := s1.checkImage image;
      let asid := s.asidOf s.cur;
      ((s1.asidCtl (dieOfSlot s.cur) asid).taskrc = false →
        exec (.rcommit d a m) s = .next (s1.wrote d 0x8000000000000001)) ∧
      ((s1.asidCtl (dieOfSlot s.cur) asid).taskrc = true → r.1 ≠ 0 →
        exec (.rcommit d a m) s = .next (s1.wrote d (BitVec.ofNat 64 (2 ^ 63 + r.2 * 2 ^ 16 + r.1)))) ∧
      ((s1.asidCtl (dieOfSlot s.cur) asid).taskrc = true → r.1 = 0 →
        ∃ x, exec (.rcommit d a m) s = .next x ∧ x.curSlot.hold = some .commit ∧ x.curSlot.pc = s1.curSlot.pc ∧ s1.memSame x ∧
          x.pkg.commits = s1.pkg.commits ++ [{ asid := asid, set := image.map rangeOf, slot := some (s.cur, d) }] ∧
          (s1.pkg.commits = [] → x.agenda = s1.agenda ++ s1.liveDies.map (fun e => .rangeCommitDrainReport e)) ∧
          (s1.pkg.commits ≠ [] → x.agenda = s1.agenda))) ∧
    (s.readBlock s.cur (s.reg a) ((n.val + 4) / 4) = .ok s1 w →
      let part := (s.slotTask s.cur).part;
      let p := (s1.partAt part).pol;
      let prog := bytecodesOf w (n.val + 1);
      let refused (code i : Nat) : State :=
        (s1.modPol part (fun q => { q with stagecode := code, stageidx := i })).wrote d
          (BitVec.ofNat 64 (2 ^ 63 + i * 2 ^ 16 + code));
      (p.pending = true → exec (.aswap d a k n) s = .next (refused 1 0)) ∧
      (p.pending = false → p.taskswap = false → exec (.aswap d a k n) s = .next (refused 2 0)) ∧
      (∀ i, p.pending = false → p.taskswap = true → firstBad prog = some i →
        exec (.aswap d a k n) s = .next (refused 3 i)) ∧
      (p.pending = false → p.taskswap = true → firstBad prog = none →
        let v := if p.version = 65535 then 1 else p.version + 1;
        ∃ x, exec (.aswap d a k n) s = .next x ∧ (d ≠ 0 → x.reg d = BitVec.ofNat 64 v) ∧
          x.curSlot.pc = s1.curSlot.pc + 4 ∧ (x.partAt part).pol.staged = v ∧ s1.memSame x ∧
          ∀ die, die < 12 → bitAt (s1.partAt part).cfg.diemask die = true →
            (x.partDie part die).shadow = some (v, prog, k))))

/-- Traps without an instruction, window writes, home accesses, replies and the journal. 15_interrupts: Trap causes
and entry, 08_memory_ops: Full/empty words, 08_memory_ops: Replies and their traps, 08_memory_ops: The posted-store
journal, 04_placement: Ranges. What a read or a partial write finds of a block that another key holds is free (log entry 96). -/
def Obligations.TrapsAndMemoryEvents : Prop :=
  ∀ (s : State),
    (∀ w, exec (.illegalInstruction w) s = .next (s.trap 0x01 (w.setWidth 64))) ∧
    (∀ k p ps, (s.slotAt k).intrap = false → s.canTakeTrap k = true → (s.slotAt k).pend = p :: ps →
      (lowestStamp p ps).cause ≠ 0x21 → (s.slotAt k).csr.tvec ≠ 0 →
      let q := lowestStamp p ps;
      ∃ x, exec (.asyncTrapEntry k) s = .next x ∧ (x.slotAt k).csr.tcause = causeWord q.cause true ∧
        (x.slotAt k).csr.tpc = (s.slotAt k).pc ∧ (x.slotAt k).csr.tval = q.tval ∧ (x.slotAt k).intrap = true ∧
        (x.slotAt k).pc = (s.slotAt k).csr.tvec ∧ (x.slotAt k).pend = (p :: ps).erase q ∧ (x.slotAt k).g = (s.slotAt k).g ∧
        s.memSame x) ∧
    (∀ msg m b, s.arrives msg m → (s.slotAt (s.home m.spa).regSlot).bind = some b →
      let h := s.home m.spa;
      s.mayReach m.asid (s.asidOf h.regSlot) h.die = true → (s.slotAt h.regSlot).windowBusy h.regNum = false →
      ∃ x, exec (.regWindowWrite msg) s = .next x ∧ s.memSame x ∧
        (h.regNum ≠ 0 → (x.slotAt h.regSlot).reg h.regNum = m.data ∧ (x.slotAt h.regSlot).ready h.regNum = true ∧
          ((s.slotAt h.regSlot).hold ≠ some .halt → (x.slotAt h.regSlot).wake = true) ∧
          ((s.slotAt h.regSlot).hold = some .halt → (x.slotAt h.regSlot).hold = none ∧
            (x.slotAt h.regSlot).pc = (s.slotAt h.regSlot).pc + 4)) ∧
        (h.regNum = 0 → x.slotAt h.regSlot = s.slotAt h.regSlot)) ∧
    (∀ msg m, s.arrives msg m →
      let h := s.home m.spa;
      (s.tableDue h.coreNum = false → exec (.tblWindowWrite msg) s = .next ((s.modCore h.coreNum (fun c =>
        c.writeTbl h.off (leBytes m.width m.data.toNat))).answer m 0 0)) ∧
      (s.tableDue h.coreNum = true → exec (.tblWindowWrite msg) s = .next (s.push (.tblWindowWrite msg)))) ∧
    (∀ msg m, s.arrives msg m →
      let h := s.home m.spa;
      (h.win = .lm ∨ h.win = .dram ∨ h.win = .acc ∨ h.win = .bst) → s.lostChunk m.spa = none → s.unrecoverable m.spa = false →
      s.badFor m h.key = false → m.holds (s.isFull h.key) = true →
      let r := s.perform m h.key;
      exec (.homeAccess msg) s = .next ((r.1.answer m r.2.1 r.2.2).homePass h.key) ∧
        (m.kind = .read → r = (s, BitVec.ofNat 64 ((s.under h m.width).loadNat h.key m.width), 0)) ∧
        (m.kind = .write → s.memoryWf → (s.twinKey h.key).isNone = true →
          r.1.loadNat h.key m.width = m.data.toNat % 2 ^ (8 * m.width) ∧
          (s.under h m.width).memOutside r.1 h.key m.width ∧
          (h.win = .dram → ∀ a, h.key ≤ a → a < h.key + m.width → FMap.get 0 r.1.pkg.ciphers (a / 16) = h.cipher)) ∧
        (h.win ≠ .dram → s.under h m.width = s)) ∧
    (∀ msg m v f, s.findMsg msg = some m → m.st = .replied v f → (s.dropMsg msg).acquireLeft m = true →
      exec (.replyArrival msg) s = .next ((s.dropMsg msg).holdAcquire m v)) ∧
    (∀ msg m v f, s.findMsg msg = some m → m.st = .replied v f → (s.dropMsg msg).acquireLeft m = false →
      (m.marking = true → ∀ k, s.copiesOf m.who = [k] → ∃ x, exec (.replyArrival msg) s = .next x ∧ s.memSame x ∧
        x.findMsg msg = none ∧ (m.reg ≠ 0 → (x.slotAt k).reg m.reg = v) ∧ (x.slotAt k).ready m.reg = true ∧
        (x.slotAt k).pc = (s.slotAt k).pc) ∧
      (m.marking = false → ∀ k, s.copiesOf m.who = [k] → (s.slotAt k).hold = some (.msg msg) →
        exec (.replyArrival msg) s = .next ((s.dropMsg msg).endAccess k m v f true))) ∧
    (∀ msg m c k, s.findMsg msg = some m → m.st = .refused c → m.marking = false → s.copiesOf m.who = [k] →
      (s.slotAt k).hold = some (.msg msg) →
      exec (.replyArrival msg) s = .next ((s.dropMsg msg).trapHeld k 0x0E (replyVal c m.va))) ∧
    (∀ core e j, FMap.find (s.coreAt core).journal e = some j →
      exec (.journalAck core e) s =
        .next ((s.modCore core (fun c => { c with journal := FMap.drop e c.journal })).tryCommit j.who.task)) ∧
    (∀ core e j t (code : BitVec 7), FMap.find (s.coreAt core).journal e = some j → s.findTask j.who.task = some t →
      (s.slotAt j.slot).bind = some j.who → (s.slotAt j.slot).ended = false → s.copiesOf j.who = [j.slot] →
      ∃ x, exec (.postedStoreRefusal core e code) s = .next x ∧ s.memSame x ∧
        FMap.find (x.coreAt core).journal e =
          some { j with st := .refused code.toNat, stamp := (s.slotAt j.slot).stamp } ∧
        (x.slotAt j.slot).pend = (s.slotAt j.slot).pend ++ [{ cause := 0x21, tval := BitVec.ofNat 64 e, stamp := (s.slotAt j.slot).stamp }])

/-- Fills, write-backs and merge windows of the caches. 08_memory_ops: The data cache, 05_encoding: The instruction
cache and pinned code. -/
def Obligations.CacheEvents : Prop :=
  ∀ (s : State),
    (∀ core line, ((s.coreAt core).findL line).isSome = true →
      exec (.l1Fill core line) s = .next ((s.lineWaiters core line).foldl State.wakeLine s)) ∧
    (∀ core line bs s', (s.coreAt core).findL line = none → s.lostChunk (line * 32) = none → s.heldLine line = false →
      s.fillAnswer core line = some (0, bs) → (s.dropFill core line).makeRoom core line = some s' →
      ∃ y : State, exec (.l1Fill core line) s = .next ((s.lineWaiters core line).foldl State.wakeLine y) ∧
        (y.coreAt core).findL line = some { line := line, bytes := bs, dirty := List.replicate 32 false } ∧
        y.mem = s'.mem ∧ y.slots = s'.slots) ∧
    (∀ core line bs, (s.coreAt core).findL line = none → s.lostChunk (line * 32) = none → s.heldLine line = false →
      s.fillAnswer core line = some (0, bs) → (s.dropFill core line).makeRoom core line = none →
      exec (.l1Fill core line) s = .next ((s.dropFill core line).tryWays core line)) ∧
    (∀ core line, (s.home (line * 32)).outside = false → s.fillAnswer core line = some (s.readFill line)) ∧
    (∀ core line, (s.coreAt core).findL line = none → s.lostChunk (line * 32) = none →
      (s.heldLine line = true → exec (.l1Fill core line) s = .next (s.after (acNs 4096) (.l1Fill core line))) ∧
      (s.heldLine line = false → s.fillAnswer core line = none →
        exec (.l1Fill core line) s = .next (s.askOutside core line))) ∧
    (∀ core line d, (s.coreAt core).findL line = none → s.lostChunk (line * 32) = some d →
      exec (.l1Fill core line) s = .next (s.awaitChunk d)) ∧
    (∀ id w, s.wbs.find? (fun w => w.id == id) = some w →
      (∀ k, w.slot = some k → (s.slotAt k).hold = some .writeback →
        (s.wbs.filter (fun w => w.id != id)).any (fun w => w.slot == some k) = false →
        ∃ x, exec (.writebackReply id 0) s = .next x ∧ x.wbs = s.wbs.filter (fun w => w.id != id) ∧ s.memSame x ∧
          x.slotAt k = (s.slotAt k).again) ∧
      (∀ code : BitVec 7, code ≠ 0 → w.slot = none →
        ∃ x, exec (.writebackReply id code) s = .next x ∧ x.wbs = s.wbs.filter (fun w => w.id != id) ∧ s.memSame x ∧
          (x.coreAt w.core).l1 = (s.coreAt w.core).l1.map (fun l => if sameLine l.line w.line then
            { l with dirty := List.zipWith (· || ·) l.dirty w.mask, refused := true } else l) ∧
          x.timers = s.timers ++ [⟨s.now + acNs 4096, .writebackRetry w.core⟩])) ∧
    (∀ core l, (s.coreAt core).l1.filter (fun l => l.refused && l.isDirty) = [l] →
      (s.heldLine l.line = false → exec (.writebackRetry core) s = .next (s.startWriteBack core l.line none)) ∧
      (s.heldLine l.line = true →
        exec (.writebackRetry core) s = .next (s.after (acNs 4096) (.writebackRetry core)))) ∧
    (∀ q block m, (s.clusterAt q).merges.find? (fun m => m.block == block) = some m →
      ∃ x, exec (.mergeWindowExpiry q block) s = .next x ∧ s.memSame x ∧
        (x.clusterAt q).merges = (s.clusterAt q).merges.filter (fun m => m.block != block) ∧
        x.agenda = s.agenda ++ m.lines.map (fun l => l.2)) ∧
    (∀ core asid line e a bs, s.translate (dieOfCore core) asid (line * 32) 32 = some (e, a) → e.x = true →
      (s.home a).win = .dram → s.lostChunk a = none → s.lostHome (s.home a) = false → s.readLine a = (0, bs) →
      ∃ x l, exec (.icacheFill core asid line) s = .next x ∧ s.memSame x ∧ (x.coreAt core).findI asid line = some l ∧
        l.words = wordsOf bs ∧ l.pin = ((s.coreAt core).findI asid line).bind (fun l => l.pin))

/-- Rotation and balancing boundaries, decisions, and the staging and switch of policies. 03_accord: Where decisions
are taken, 03_accord: Budget, fallback and disabling, 03_accord: Installing and swapping programs, 04_placement:
Load-levelling. -/
def Obligations.SchedulerDecisionsAndBoundaries : Prop :=
  ∀ (s : State),
    (∀ die, s.liveDies.contains die = true → (s.dieAt die).lost = false →
      let r := s.refreshDie die;
      let g := (r.bindDies die).foldl State.freeDone r;
      let h := State.bindAll { g with agenda := g.switches die ++ g.agenda } die;
      let y := (h.boundaryCores die).foldl State.arbitrate h;
      exec (.rotationBoundary die) s = .next (y.activeParts.foldl (fun (s : State) p => s.poseDispatch die p) y)) ∧
    (∀ die, s.liveDies.contains die = true → (s.dieAt die).lost = false →
      let back := s.tasks.filter (fun t => t.st == .swapped && !t.parked && t.saves.any (fun a => dieOfCore a.core == die));
      let g := s.pushAll (back.map (fun t => .swapIn t.id));
      let y := (coresOfDie die).foldl State.enforceCore ((coresOfDie die).foldl State.level g);
      (s.tasks = [] → exec (.balancingInterval die) s = .next s) ∧
      (s.tasks ≠ [] → exec (.balancingInterval die) s =
        .next (y.activeParts.foldl (fun (s : State) p => s.posePreempt die p) y))) ∧
    (∀ part die d (go : Instr),
      (go = .dispatchDecision part die ∨ go = .preemptionDecision part die ∨ go = .faultDecision part die) →
      s.dieCode die = 0 → (s.dieAt die).lost = false → s.inFlight part die = false → s.firstDecision part die = some d →
      (d.kind = .fault → ∃ t, s.findTask d.task = some t ∧ t.discarded = false) →
      let busy := (s.dieAt die).decisions.countP (fun e => e.run.isSome);
      (sequencers ≤ busy → exec go s = .next s) ∧
      (busy < sequencers →
        ∃ x e r, exec go s = .next x ∧ x.tasks = s.tasks ∧ x.slots = s.slots ∧ s.memSame x ∧ e ∈ (x.dieAt die).decisions ∧
          e.run = some r ∧ e.part = part ∧ e.kind = d.kind ∧ e.task = d.task ∧ s.now < r.due ∧ r.due ≤ s.now + acNs 140 ∧
          x.timers = s.timers ++ [⟨r.due, d.event die⟩] ∧
          ((s.partDie part die).version = 0 ∨ (s.partAt part).pol.disabled = true →
            r.fallback = true ∧ r.overrun = none ∧ r.held = [] ∧ r.weights = [] ∧ r.choice = s.fallback e die ∧
            (d.kind = .preempt → r.task = none) ∧
            (d.kind = .fault → r.choice.faction = if (s.taskAt d.task).fretry = 0 then 0 else 3)))) ∧
    (∀ part die d r (go : Instr),
      (go = .dispatchDecision part die ∨ go = .preemptionDecision part die ∨ go = .faultDecision part die) →
      s.dieCode die = 0 → (s.dieAt die).lost = false → d.part = part → d.run = some r →
      (s.dieAt die).decisions.find? (fun e => e.part == part && e.run.isSome) = some d →
      let y := s.modDie die (fun x => { x with decisions := x.decisions.erase d });
      (s.now < r.due → exec go s = .next s) ∧
      (r.due ≤ s.now → exec go s = .next (s.endDecision d die r) ∧
        (y.carryOut d die r = none → ∃ x, exec go s = .next x ∧ x.tasks = s.tasks ∧ x.slots = s.slots ∧ s.memSame x ∧
          (x.partAt part).pol = (s.partAt part).pol ∧ (x.dieAt die).decisions.contains { d with run := none } = true) ∧
        (∀ t, d.kind = .fault → s.findTask d.task = some t → t.discarded = false → t.endCode = 0 → t.st = .rolledBack →
          d.fcode ≠ FaultClass.gangLate.code → ∃ x, exec go s = .next x ∧
            (r.choice.faction = 0 → x.tasks = (y.requeue d.task false).tasks) ∧
            (r.choice.faction = 1 → x.tasks = (y.requeue d.task true).tasks) ∧
            (r.choice.faction = 2 → x.tasks = (y.kill d.task 1).tasks) ∧
            (r.choice.faction = 3 → x.tasks = (y.modTask d.task (fun t => { t with parked := true })).tasks)))) ∧
    (∀ part, (s.partAt part).pol.image % 8 = 0 →
      s.imageWaits (s.partAt part).pol.image (2 * ((s.partAt part).pol.imglen + 1)) = true →
      exec (.stage part) s = .next (s.after (acNs 4096) (.stage part))) ∧
    (∀ part bs, (s.partAt part).pol.pending = false → (s.partAt part).pol.image % 8 = 0 →
      s.imageWaits (s.partAt part).pol.image (2 * ((s.partAt part).pol.imglen + 1)) = false →
      s.imageAt (s.partAt part).pol.image (2 * ((s.partAt part).pol.imglen + 1)) = some bs →
      let p := (s.partAt part).pol;
      let prog := bytecodesOf (leNat bs) (p.imglen + 1);
      let v := if p.version = 65535 then 1 else p.version + 1;
      firstBad prog = none →
        ∃ x, exec (.stage part) s = .next x ∧ (x.partAt part).pol.staged = v ∧ s.memSame x ∧
          ∀ die, die < 12 → bitAt (s.partAt part).cfg.diemask die = true →
            (x.partDie part die).shadow = some (v, prog, p.keep)) ∧
    (∀ part die, s.inFlight part die = true → exec (.policySwitch part die) s = .next s) ∧
    (∀ part die v prog keep, s.inFlight part die = false → (s.partDie part die).shadow = some (v, prog, keep) →
      ∃ x, exec (.policySwitch part die) s = .next x ∧ (x.partDie part die).version = v ∧ (x.partDie part die).prog = prog ∧
        (x.partDie part die).shadow = none ∧
        (x.partDie part die).held = (if keep then (s.partDie part die).held else []) ∧ s.memSame x)

/-- A gang slice is asked for: the package places its members or keeps the cores where they are saved, and frees slots
there. It starts on a package that is free, looks again until T + GRACE where it is not, is cancelled there, ends after
GSLICE, and counts the packages whose members are saved. 03_accord: Gang slices across packages, 15_interrupts: Gangs and
slices. -/
def Obligations.GangSlices : Prop :=
  ∀ (s : State) (task : Nat) (x : Slice) (t : Task), s.findSlice task = some x → s.findTask task = some t →
    (let frees : State → State := fun s =>
       (if (s.taskAt task).saves = [] then (s.taskAt task).memberCores
         else ((s.taskAt task).saves.map (fun a => a.core)).eraseDups).foldl (fun (s' : State) c =>
           s'.freeCore (s.taskAt task).part c (s.taskAt task).decl.slots 16 (s'.unbound c).length) s;
     let mine := x.mine s.fabric.coord;
     let cores := ((s.instanceList t).filter (fun c => (s.coreAt c).work.length < 64 && !s.coreHeld c)).take mine.2;
     let places := (t.st = .placed ∧ t.cores = []) ∨ (t.st = .preempted ∧ t.saves = []);
     (places → cores.length = mine.2 →
       exec (.gangSliceRequest task) s = .next (frees (s.placeTask task mine.1 cores))) ∧
     (places → cores.length ≠ mine.2 → exec (.gangSliceRequest task) s = .next (frees s)) ∧
     (¬ places → exec (.gangSliceRequest task) s = .next (frees s))) ∧
    (x.started = false → x.cancelled = false → x.start ≤ s.now →
      (s.sliceFree t = true →
        exec (.gangSliceStart task) s = .next (s.modSlice task (fun x => { x with started := true })) ∧
        exec (.gangLateMemberStart task) s = .next (s.modSlice task (fun x => { x with started := true }))) ∧
      (s.sliceFree t = false → s.now < x.start + x.grace →
        exec (.gangSliceStart task) s = .next (s.after (acNs 16) (.gangLateMemberStart task)) ∧
        exec (.gangLateMemberStart task) s = .next (s.after (acNs 16) (.gangLateMemberStart task))) ∧
      (s.sliceFree t = false → x.start + x.grace ≤ s.now →
        exec (.gangSliceStart task) s = .next s ∧ exec (.gangLateMemberStart task) s = .next s)) ∧
    (x.started = true ∨ x.cancelled = true ∨ s.now < x.start →
      exec (.gangSliceStart task) s = .next s ∧ exec (.gangLateMemberStart task) s = .next s) ∧
    (x.cancelled = true ∨ s.now < x.start + x.grace ∨
        (x.bound = true ∧ ∀ p ∈ x.packages, p.1 = s.fabric.coord) → exec (.gangSliceCancel task) s = .next s) ∧
    (x.bound = false → x.cancelled = false → x.start + x.grace ≤ s.now →
      (t.st = .placed →
        ∃ y z, exec (.gangSliceCancel task) s = .next y ∧ y.findSlice task = some z ∧ z.cancelled = true ∧
          s.fabric.coord ∈ z.saved ∧ (y.taskAt task).st = .preempted ∧ (y.taskAt task).image = [] ∧
          (∀ c, (y.coreAt c).work.any (fun e => e.1 == task) = false) ∧ s.memSame y ∧
          (x.home = s.fabric.coord → ∃ die, y.agenda.getLast? = some (.faultDecision t.part die))) ∧
      (t.st ≠ .placed →
        let r := (s.modSlice task (fun x => { x with cancelled := true })).requestPreempt task;
        let y := if t.st = .preempted ∨ t.st = .swapped then
          r.modSlice task (fun x => { x with saved := s.fabric.coord :: x.saved }) else r;
        exec (.gangSliceCancel task) s =
          .next (if x.home = s.fabric.coord then y.poseFault task t.die FaultClass.gangLate.code t.memberDies else y))) ∧
    (x.cancelled = false → x.gslice ≠ 0 → x.start + x.gslice ≤ s.now →
      exec (.gangSliceEnd task) s = .next (s.requestPreempt task)) ∧
    (x.cancelled = true ∨ x.gslice = 0 ∨ s.now < x.start + x.gslice → exec (.gangSliceEnd task) s = .next s) ∧
    (∀ pkg, ∃ y z, exec (.gangMembersSaved task pkg) s = .next y ∧ y.findSlice task = some z ∧ z.saved.contains pkg = true ∧
      y.tasks = s.tasks ∧ y.slots = s.slots ∧ y.mem = s.mem)

/-- Doorbells, the admission of records, partition configuration and the staging of inputs. 02_launch: Partition
configuration and launch queues, 02_launch: Admission, 02_launch: Expansion into tasks. -/
def Obligations.LaunchAndStaging : Prop :=
  ∀ (s : State) (part : Nat), part < 64 →
    let p := (s.partAt part).cfg;
    (∀ xdie (v : BitVec 64), s.xdieUp xdie = true → p.stalled = false →
      let tail := v.toNat % 65536;
      (p.enable = false ∨ p.ringOk = false ∨ 2 ^ p.lqsize < (tail + 65536 - p.lqhead) % 65536 →
        exec (.doorbell xdie part v) s = .next (s.modCfg part (fun p => { p with dberr := true }))) ∧
      (p.enable = true → p.ringOk = true → (tail + 65536 - p.lqhead) % 65536 ≤ 2 ^ p.lqsize → tail ≠ p.lqtail →
        exec (.doorbell xdie part v) s =
          .next ((s.modCfg part (fun p => { p with lqtail := tail })).push (.launchAdmission part)))) ∧
    (∀ (go : Instr),
      (go = .launchAdmission part ∧ p.lqhead ≠ p.lqtail ∧ p.ringOk = true ∧ p.held = false) ∨
        (go = .heldRecordRecheck part ∧ p.held = true) →
      (s.energyDue part = true → ∃ e, exec go s = .next (s.push e) ∧
        (p.held = false → e = .launchAdmission part) ∧ (p.held = true → e = .heldRecordRecheck part)) ∧
      (s.energyDue part = false →
        let y := s.readCfg part;
        let q := (y.partAt part).cfg;
        let a := q.recordNow;
        (y.home a).win = .dram →
        (∀ code, y.askSpa a 256 = .error code → exec go s = .next (y.unreadRing part a code)) ∧
        (∀ bs w, y.askSpa a 256 = .ok bs → (if q.held then some y else y.writeState a 0 1) = some w →
          let n := if q.recAt = some a then leNat bs / 2 ^ 32 * 2 ^ 32 else leNat bs;
          let z := w.modCfg part (fun p => { p with recAt := some a });
          let r := z.parseRecord part (n % 2 ^ 1024) [fieldAt n 1024 512, fieldAt n 1536 512];
          (∀ code, r = .unread code → exec go s = .next (z.unreadRing part a code)) ∧
          (∀ code u, r = .refuse code → z.writeState a code 4 = some u → exec go s = .next (u.nextRecord part)) ∧
          (∀ u, r = .hold → z.writeState a 0 2 = some u →
            exec go s = .next (u.modCfg part (fun p => { p with held := true, stalled := false }))) ∧
          (∀ bl u, r = .accept bl → z.writeState a 0 3 = some u →
            exec go s = .next ((u.accept part (n % 2 ^ 1024) bl).nextRecord part))))) ∧
    (s.pkg.status.ready = true → ∀ v : BitVec 64,
      exec (.partitionConfigWrite part .energy v) s =
        .next ((s.modCfg part (fun p => { p with energy := v.toNat })).push (.heldRecordRecheck part)) ∧
      exec (.partitionConfigWrite part .stagebase v) s =
        .next (s.modCfg part (fun p => { p with stagebase := v.toNat % 2 ^ 60 })) ∧
      exec (.partitionConfigWrite part .share v) s =
        .next (s.modCfg part (fun p => { p with share := v.toNat % 32 })) ∧
      exec (.partitionConfigWrite part .diemask v) s =
        .next (s.modCfg part (fun p => { p with diemask := v.toNat % 4096 })) ∧
      (let t := s.modCfg part (fun p => { p with qcount := v.toNat % 32 });
       (t.queueSum ≤ 256 → v.toNat % 32 ≠ 0 ∨ (s.partAt part).pol.pending = false →
         exec (.partitionConfigWrite part .qcount v) s = .next (t.push (.heldRecordRecheck part))) ∧
       (t.queueSum ≤ 256 → v.toNat % 32 = 0 → (s.partAt part).pol.pending = true →
         exec (.partitionConfigWrite part .qcount v) s = .next ((t.push (.heldRecordRecheck part)).abandonSwap part)) ∧
       (256 < t.queueSum →
         exec (.partitionConfigWrite part .qcount v) s = .next (s.modCfg part (fun p => { p with qerr := true })))) ∧
      exec (.enadd part v) s = .next ((s.modCfg part (fun p =>
        { p with energy := min (p.energy + v.toNat) (2 ^ 64 - 1) })).push (.heldRecordRecheck part))) ∧
    (∀ task t, s.findTask task = some t → t.st = .queued →
      (t.decl.nin = 0 → t.parked = false →
        ∃ x, exec (.stagingFetchComplete task 0) s = .next x ∧ (x.taskAt task).st = .ready ∧ s.memSame x) ∧
      (∀ i tile a bs, i < t.decl.nin → t.tilesIn[i]? = some tile → tile.fetch = true → (t.staged i).resident = false →
        (t.staged i).spa = some a → s.translationHeld t.asid = false →
        s.askVa (dieOfCore t.point) t.asid tile.addr tile.length = .ok bs →
        ∃ x, exec (.stagingFetchComplete task i) s = .next x ∧ exec (.stagingFetchRetry task i) s = .next x ∧
          ((x.taskAt task).staged i).bytes = bs ∧ ((x.taskAt task).staged i).resident = true ∧
          (s.stagingKey a = none → s.memSame x) ∧
          (∀ key, s.stagingKey a = some key → (s.underKey 0 key bs.length).memOutside x key bs.length ∧
            (s.memoryWf → ∀ n, n < bs.length → Memory.read x.mem (key + n) = bs.getD n 0))))

/-- Range commits are checked, drained and switched on every die at once. 04_placement: Committing a range set. -/
def Obligations.RangeCommitsRun : Prop :=
  ∀ (s : State),
    (∀ xdie, (xdie = 12 ∨ xdie = 13) → (s.rangeBlock xdie).busy = false ∨ (s.rangeBlock xdie).reading = true →
      (s.rangeBlock xdie).image % 32 = 0 →
      let b := s.rangeBlock xdie;
      (s.imageWaits b.image (32 * (b.nm1 + 1)) = true → exec (.go xdie) s = .next
        ((s.modRangeBlock xdie (fun b => { b with busy := true, reading := true })).after (acNs 4096) (.go xdie))) ∧
      (s.imageWaits b.image (32 * (b.nm1 + 1)) = false → s.imageAt b.image (32 * (b.nm1 + 1)) = none →
        exec (.go xdie) s = .next (s.modRangeBlock xdie (fun b =>
          { b with status := 0x8000000000000007, busy := false, reading := false }))) ∧
      (∀ bs, s.imageWaits b.image (32 * (b.nm1 + 1)) = false → s.imageAt b.image (32 * (b.nm1 + 1)) = some bs →
        let image := entriesIn (leNat bs) (b.nm1 + 1);
        let r := s.checkImage image;
        (r.1 ≠ 0 → exec (.go xdie) s = .next (s.modRangeBlock xdie (fun b =>
          { b with status := BitVec.ofNat 64 (2 ^ 63 + r.2 * 2 ^ 16 + r.1), busy := false, reading := false }))) ∧
        (r.1 = 0 → ∃ x, exec (.go xdie) s = .next x ∧ (x.rangeBlock xdie).busy = true ∧ s.memSame x ∧
          x.pkg.commits = s.pkg.commits ++ [{ asid := b.asid, set := image.map rangeOf, host := some xdie }]))) ∧
    (∀ die c rest, s.pkg.commits = c :: rest → c.reported.contains die = false → c.switchAt = none →
      (s.undrained die c.asid = true →
        exec (.rangeCommitDrainReport die) s = .next (s.after (acNs 16) (.rangeCommitDrainReport die))) ∧
      (s.undrained die c.asid = false →
        let all := s.liveDies.all (c.reported ++ [die]).contains;
        ∃ x, exec (.rangeCommitDrainReport die) s = .next x ∧ s.memSame x ∧
          x.pkg.commits = { c with
            reported := c.reported ++ [die], latest := s.now,
            switchAt := if all then some (s.now + 2000) else none } :: rest ∧
          x.timers = (if all then s.timers ++ [⟨s.now + 2000, .rangeCommitSwitch⟩] else s.timers))) ∧
    (∀ c rest tm, s.pkg.commits = c :: rest → c.switchAt = some tm → c.set.length ≤ 64 →
      ∃ x, exec .rangeCommitSwitch s = .next x ∧ x.pkg.commits = rest ∧ s.memSame x ∧
        (∀ die, die < 12 →
          (x.asidCtl die c.asid).ver = ((s.asidCtl die c.asid).ver + 1) % 2 ^ 16 ∧
          (∀ i, i < 64 → FMap.find (x.dieAt die).ranges (c.asid * 64 + i) = c.set[i]?) ∧
          (∀ n, n / 64 ≠ c.asid → FMap.find (x.dieAt die).ranges n = FMap.find (s.dieAt die).ranges n)) ∧
        (∀ k r, c.slot = some (k, r) → (s.slotAt k).hold = some .commit →
          (x.slotAt k).hold = none ∧ (x.slotAt k).pc = (s.slotAt k).pc + 4 ∧
          (r ≠ 0 → (x.slotAt k).reg r = BitVec.ofNat 64 (((s.asidCtl 0 c.asid).ver + 1) % 2 ^ 16))) ∧
        (∀ h, c.host = some h → (x.rangeBlock h).busy = false ∧
          (x.rangeBlock h).status = BitVec.ofNat 64 (((s.asidCtl 0 c.asid).ver + 1) % 2 ^ 16)))

/-- Routing, links, timers and the clock of the fabric, its fence list, and the loss of an X-die. 14_fabric: Routing,
14_fabric: Lane and link events, 14_fabric: Negative replies and timeouts, 14_fabric: The fabric block. -/
def Obligations.FabricEvents : Prop :=
  ∀ (s : State),
    (∀ id p port, s.findPacket id = some p → p.sent = false → p.link = none → s.packetLive p = true →
      s.portKept p = some port → exec (.routerHop id) s = .next (s.outBy p (s.target p) port)) ∧
    (∀ id p, s.findPacket id = some p → p.sent = false → p.link = none → s.packetLive p = true → s.portKept p = none →
      let dst := s.target p;
      (s.fencedPkg dst = true → exec (.routerHop id) s = .next (s.refusePacket p 6)) ∧
      (s.route p dst = .deliver → exec (.routerHop id) s = .next ((s.forgetPacket id).performPacket p)) ∧
      (∀ port, s.route p dst = .port port → exec (.routerHop id) s = .next (s.outBy p dst port)) ∧
      (∀ port dim, s.route p dst = .detour port dim → exec (.routerHop id) s = .next ((s.modPacket id (fun p =>
        { p with detours := p.detours + 1, order := p.order.filter (fun d => d != dim) ++ [dim] })).outBy p dst port))) ∧
    (∀ id p, s.findPacket id = some p → s.packetLive p = true → p.sent = true → p.start + p.limit ≤ s.now →
      p.link.any (fun n => (s.link n).st == .paused || (s.link n).st == .training) = false →
      exec (.fabricTimeout id) s = .next (s.refusePacket p 7)) ∧
    (∀ port link, s.linkHere port link = true →
      let n := 4 * port + link;
      (∀ lane, lane < 4 → (s.link n).st = .up →
        let live := (s.link n).live &&& (15 - 2 ^ lane);
        let t := s.modLink n (fun x => { x with live := live });
        (s.laneUsed n lane = false → exec (.laneLoss port link lane) s = .next t) ∧
        (s.laneUsed n lane = true → live = 0 → exec (.laneLoss port link lane) s = .next (t.linkDown n)) ∧
        (s.laneUsed n lane = true → live ≠ 0 → exec (.laneLoss port link lane) s = .next (t.train n live))) ∧
      (∀ lane, lane < 4 → (s.link n).st = .training →
        let live := (s.link n).live &&& (15 - 2 ^ lane);
        let t := s.modLink n (fun x => { x with live := live });
        ((s.link n).full = true → exec (.laneLoss port link lane) s = .next (t.trainFull n (2 ^ lane))) ∧
        ((s.link n).full = false → live = 0 → exec (.laneLoss port link lane) s = .next (t.linkDown n)) ∧
        ((s.link n).full = false → live ≠ 0 → exec (.laneLoss port link lane) s = .next (t.train n live))) ∧
      (∀ lane, lane < 4 → (s.link n).st = .paused → (s.link n).trainAt = none →
        let live := (s.link n).live &&& (15 - 2 ^ lane);
        let t := s.modLink n (fun x => { x with live := live });
        (s.laneUsed n lane = false → exec (.laneLoss port link lane) s = .next t) ∧
        (s.laneUsed n lane = true → live = 0 → exec (.laneLoss port link lane) s = .next (t.linkDown n)) ∧
        (s.laneUsed n lane = true → live ≠ 0 →
          exec (.laneLoss port link lane) s = .next (t.modLink n (fun x => { x with want := true })))) ∧
      ((s.link n).st = .paused → (s.link n).trainAt = none →
        exec (.retrain port link) s = .next (s.modLink n (fun x => { x with want := true, full := true }))) ∧
      ((s.link n).st ≠ .paused ∨ (s.link n).trainAt.isSome = true →
        ∃ x tm live, exec (.retrain port link) s = .next x ∧ (x.link n).full = true ∧ tm ≤ 60000 ∧
          ((x.link n).st = .training ∨
            ((s.link n).st = .up ∧ (x.link n).st = .paused ∧ (x.link n).trainAt.isSome = true)) ∧
          x.timers.contains ⟨s.now + tm, .linkTrainingDone port link live⟩ = true) ∧
      (∀ live : BitVec 4, (s.link n).st = .training ∨ (s.link n).trainAt.isSome = true ∨
          ((s.link n).st = .down ∧ (s.link n).trained = false) →
        (live = 0 → ∃ x, exec (.linkTrainingDone port link live) s = .next x ∧ (x.link n).st = .down ∧ (x.link n).live = 0) ∧
        (live ≠ 0 → ∃ x, exec (.linkTrainingDone port link live) s = .next x ∧ (x.link n).st = .up ∧
          (x.link n).live = live.toNat ∧ (x.link n).width = widthOf live.toNat ∧ (x.link n).upSince = some s.now)) ∧
      (∀ live : BitVec 4, (s.link n).st ≠ .training → (s.link n).trainAt = none →
        (s.link n).st ≠ .down ∨ (s.link n).trained = true →
        exec (.linkTrainingDone port link live) s = .next s) ∧
      ((s.readControl (xdieOfLink link) (0x300000 + 16 * port + 8 * (link % 2))).toNat % 65536 =
        match (s.link n).upSince with
        | some u => min ((s.now - u) / 1000) 65535
        | none => 0) ∧
      (∀ t : State, (s.link n).st = .up →
        (∃ p rest, s.retryBuffer n = p :: rest ∧ t = s.modPacket p.id (fun q => { q with
            resends := q.resends + 1, acked := max q.acked (s.now + 1 + Config.freeCode s.freeCtr q.id) })) ∨
          (s.retryBuffer n = [] ∧ t = s.modLink n (fun x => { x with
            resends := if Config.freeCode s.freeCtr n % 2 = 0 then x.resends + 1 else 1 })) →
        (t.resends n < 16 → exec (.flitCrcResend port link) s = .next t) ∧
        (16 ≤ t.resends n → exec (.flitCrcResend port link) s = .next (t.push (.flitResendLimit port link)))) ∧
      (16 ≤ s.resends n → ∃ x, exec (.flitResendLimit port link) s = .next x ∧ (x.link n).st = .down) ∧
      (∀ wovr (weight : BitVec 4), ∃ x, exec (.linkWeightWrite port link wovr weight) s = .next x ∧
        (x.link n).wovr = wovr ∧ (x.link n).weight = weight.toNat ∧ (x.link n).st = (s.link n).st)) ∧
    (∀ xdie (code : BitVec 2), s.xdieUp xdie = true → code ≠ 3 →
      ∃ x, exec (.rclk xdie code) s = .next x ∧ x.fabric.rclk = code.toNat ∧
        (∀ y, (y = 12 ∨ y = 13) → s.xdieUp y = true → FMap.find x.fabric.rclkHeld y = some code.toNat) ∧
        x.agenda = s.agenda ++ ([12, 13].filter s.xdieUp).map (fun y => .rclkApply y)) ∧
    (∀ xdie code, FMap.find s.fabric.rclkHeld xdie = some code → s.widthDue xdie = true →
      exec (.rclkApply xdie) s = .next (s.push (.rclkApply xdie))) ∧
    (∀ xdie code, FMap.find s.fabric.rclkHeld xdie = some code → s.widthDue xdie = false →
      (linksOfXdie xdie).any (fun n => (s.link n).st == .paused || (s.link n).st == .training ||
        ((s.link n).marked && (s.link n).st == .up &&
          (s.link n).upSince.any (fun u => decide (s.now < u + 10000)))) = false →
      ∃ x, exec (.rclkApply xdie) s = .next x ∧ FMap.find x.fabric.rclkHeld xdie = none ∧
        FMap.get 0 x.fabric.clocks xdie = code ∧ FMap.get false x.fabric.rclkApplying xdie = true ∧
        (∀ n, (linksOfXdie xdie).contains n = true → (s.link n).st = .up → (s.link n).trainAt = none →
          (x.link n).st = .paused) ∧
        x.timers = s.timers ++ [⟨s.now + 2000, .rclkPauseEnd xdie⟩]) ∧
    (∀ xdie, FMap.get false s.fabric.rclkApplying xdie = true →
      let t := s.modFabric (fun b => { b with rclkApplying := FMap.drop xdie b.rclkApplying });
      ((linksOfXdie xdie).all (fun n => (s.link n).st != .paused) = true → exec (.rclkPauseEnd xdie) s = .next t) ∧
      (∀ n, (linksOfXdie xdie).filter (fun n => (s.link n).st == .paused) = [n] → (s.link n).trainAt.isSome = true →
        exec (.rclkPauseEnd xdie) s = .next t) ∧
      (∀ n, (linksOfXdie xdie).filter (fun n => (s.link n).st == .paused) = [n] → (s.link n).trainAt = none →
        (s.link n).want = false → exec (.rclkPauseEnd xdie) s = .next (t.linkUp n (s.link n).live)) ∧
      (∀ n, (linksOfXdie xdie).filter (fun n => (s.link n).st == .paused) = [n] → (s.link n).trainAt = none →
        (s.link n).want = true →
        ((s.link n).full = false → (s.link n).live = 0 → exec (.rclkPauseEnd xdie) s = .next (t.linkDown n)) ∧
        ((s.link n).full = true → exec (.rclkPauseEnd xdie) s = .next (t.trainFull n 0)) ∧
        ((s.link n).full = false → (s.link n).live ≠ 0 → exec (.rclkPauseEnd xdie) s = .next (t.train n (s.link n).live)))) ∧
    (∀ xdie, s.xdieUp xdie = true → ∃ x, exec (.xdieLoss xdie) s = .next x ∧ FMap.get false x.fabric.xdieLost xdie = true ∧
      (∀ n, (linksOfXdie xdie).contains n = true → (x.link n).st = .down ∨ (x.link n).st = .notConn) ∧
      x.timers.getLast? = some ⟨s.now + 10000, .heartbeat xdie⟩) ∧
    (∀ i (v : BitVec 16), i < 64 → s.xdieUp 12 = true → exec (.fenceListWrite i v) s =
      .next (s.modFabric (fun b => { b with fence := FMap.set i (v &&& 0x9FFF) b.fence })))

/-- Pre-emptions, swaps, pair items, restores, retirement, the watchdog and soft errors. 15_interrupts: Pre-emption,
15_interrupts: Checked pairs, 16_recovery: Rolling back, 16_recovery: The watchdog, 16_recovery: Fault classes,
17_retire: Retirement records. -/
def Obligations.PreemptionPairsAndSoftErrors : Prop :=
  ∀ (s : State),
    (∀ task, ((s.taskAt task).st = .running ∨ (s.taskAt task).st = .speculative) → (s.taskAt task).saving = none →
      let y := s.withStoreRoom task;
      (y.storeFits task = true → exec (.preemptionRequest task) s = .next (y.stopTask task .plain)) ∧
      (y.storeFits task = false → exec (.preemptionRequest task) s =
        .next (y.after (y.toBalance (s.taskAt task).die) (.preemptionRequest task)))) ∧
    (∀ task e, ((s.taskAt task).st = .running ∨ (s.taskAt task).st = .speculative) → (s.taskAt task).saving = some e →
      let y := (s.slotsOf task).foldl (fun (s : State) k => (s.pairResultOf k).settleSlot k) s;
      ((y.slotsOf task).all y.slotSettled = false → exec (.preemptionSave task) s = .next (y.saveLater task)) ∧
      ((y.slotsOf task).all y.slotSettled = true → (y.withStoreRoom task).storeFits task = true →
        exec (.preemptionSave task) s = .next ((y.withStoreRoom task).saveTask task e))) ∧
    (∀ task t, s.findTask task = some t →
      (let r := s.liftAreas task;
       t.st = .preempted → t.pinned = false →
        (∀ l, r.swapPlaces (r.taskAt task) = some l → exec (.swapOut task) s =
          .next ((r.modTask task (fun t => { t with st := .swapped, saves := l })).refreshAreas task)) ∧
        (r.swapPlaces (r.taskAt task) = none → exec (.swapOut task) s = .next s)) ∧
      (t.st = .swapped → t.pinned = false →
        (List.range 12).all (fun d => t.savedOn d = 0 || s.storeTaken task d + t.savedOn d ≤ contextStore) = true →
        exec (.swapIn task) s = .next ((((s.liftAreas task).modTask task (fun t =>
          { t with st := .preempted, saves := t.saves.map (fun a => { a with spa := none }) })).refreshAreas task).fetchAgain
            t.part)) ∧
      (t.pinned = true → exec (.swapOut task) s = .next s ∧ exec (.swapIn task) s = .next s) ∧
      (s.energyWriteDue t.part = true → exec (.taskRetirement task) s = .next (s.push (.taskRetirement task))) ∧
      (s.energyWriteDue t.part = false →
        let r := s.releaseTask t;
        ((t.st = .committed ∨ t.discarded = true ∨ t.endCode ≠ 0) →
          (r.releaseLeft t = false → exec (.taskRetirement task) s = .next (s.retireTask t)) ∧
          (r.releaseLeft t = true → exec (.taskRetirement task) s = .next (r.after (acNs 4096) (.taskRetirement task)))) ∧
        (t.st = .done → t.discarded = false → t.endCode = 0 →
          exec (.taskRetirement task) s = .next (s.tryCommit task)))) ∧
    (∀ task j c t u, s.primaryCore task = some c → (s.coreAt c).items.filter (fun i => i.j == j && !i.matched) = [t, u] →
      (t.word ≠ u.word ∨ t.operands ≠ u.operands → exec (.pairItemCompare task j) s = .next (s.pairMismatch task)) ∧
      (t.word = u.word → t.operands = u.operands → ∃ x, exec (.pairItemCompare task j) s = .next x ∧ s.memSame x ∧
        (x.coreAt c).items.all (fun i => i.j != j || i.matched) = true ∧
        (∀ k, k ∈ s.slotsOf task → (s.slotAt k).who.j = j → (s.slotAt k).who.secondary = false →
          (s.slotAt k).hold = some .pairItem → (x.slotAt k).hold = none))) ∧
    (∀ task j c, s.primaryCore task = some c → (s.taskAt task).st.begun = true →
      (s.coreAt c).items.any (fun i => i.j == j && !i.matched && i.since + acNs 65536 ≤ s.now) = true →
      (s.pairPaused task c = false → exec (.pairItemTimeout task j) s = .next (s.pairMismatch task)) ∧
      (s.pairPaused task c = true →
        exec (.pairItemTimeout task j) s = .next (s.after (acNs 65536) (.pairItemTimeout task j)))) ∧
    (∀ job id d, s.findDomain job id = some d → d.restoring = true → d.faulted = none →
      d.preserves.any (fun p => !p.lock && (s.dieCode (s.home p.spa).die != 0 || (s.dieAt (s.home p.spa).die).lost)) = false →
      ∃ x y, exec (.domainRestoreComplete job id) s = .next x ∧ x.findDomain job id = some y ∧ y.restoring = false ∧
        (∀ p, s.memoryWf → d.preserves = [p] → p.lock = false → (s.home p.spa).outside = false →
          let k := (s.home p.spa).key;
          Memory.wf p.bytes = true → p.bytes.all (fun b => k ≤ b.1 && b.1 < k + p.len) = true →
          (p.group = 0 → (s.under (s.home p.spa) p.len).memOutside x k p.len) ∧
            ∀ a, k ≤ a → a < k + p.len → Memory.read x.mem a = Memory.read p.bytes a)) ∧
    (∀ job id d f, s.findDomain job id = some d → d.faulted = some f → f.cycle < s.cycle →
      exec (.domainRestoreComplete job id) s = .next (s.rollbackDue job id f)) ∧
    (∀ k t, s.boundTask k = some t →
      exec (.watchdogFire k) s = .next ((s.note (.reported 3 t.id)).containedFault t.id 3) ∧
      (t.st.begun = true → s.domains.any (fun d => d.job == t.job && d.opener == some t.id) = false →
        ∃ x, exec (.watchdogFire k) s = .next x ∧ (x.taskAt t.id).st = .rolledBack ∧ (x.taskAt t.id).lastFault = 3 ∧
          x.slotsOf t.id = [])) ∧
    (∀ place,
      let e := s.errorElement place;
      ∃ x, exec (.softError place true) s = .next x ∧ s.memSame x ∧ x.tasks = s.tasks ∧ x.bad = s.bad ∧
        FMap.get 0 (x.dieAt e.1).corrected e.2 = FMap.get 0 (s.dieAt e.1).corrected e.2 + 1 ∧
        ∀ n, n ≠ e.2 → FMap.get 0 (x.dieAt e.1).corrected n = FMap.get 0 (s.dieAt e.1).corrected n) ∧
    (∀ a, s.tileOwner (s.home a) = none →
      exec (.softError (.word a) false) s = .next { s with bad := insertWord (a / 8) s.bad }) ∧
    (∀ a t, s.tileOwner (s.home a) = some t →
      let y : State := { s with bad := insertWord (a / 8) s.bad };
      exec (.softError (.word a) false) s = .next ((y.note (.reported 1 t)).containedFault t 1)) ∧
    (∀ c b, (s.coreAt c).mat.owner = some b →
      exec (.softError (.matrix c) false) s = .next ((s.note (.reported 1 b.task)).containedFault b.task 1)) ∧
    (∀ c t, (s.coreAt c).spec.any (fun l => l.task == t) = true →
      exec (.softError (.writeBuffer c t) false) s = .next ((s.note (.reported 1 t)).containedFault t 1)) ∧
    (∀ t j, (s.taskAt t).saves.any (fun a => a.j == j) = true →
      exec (.softError (.area t j) false) s = .next ((s.note (.reported 1 t)).containedFault t 1)) ∧
    (∀ k t, s.boundTask k = some t →
      exec (.softError (.slot k) false) s = .next ((s.note (.reported 1 t.id)).containedFault t.id 1)) ∧
    (∀ c l, (s.coreAt c).findL l.line = some l → l.isDirty = true →
      exec (.softError (.l1 c l.line) false) s = .next (s.coreHit c)) ∧
    (∀ c l, (s.coreAt c).findL l.line = some l → l.isDirty = false →
      ∃ x, exec (.softError (.l1 c l.line) false) s = .next x ∧ (x.coreAt c).findL l.line = none ∧ s.memSame x)

/-- Heartbeats, diagnoses, lost dies and packages, rebuilding, and the scheduler commands. 16_recovery: Diagnosis and
the vote, 16_recovery: Sparing, 16_recovery: Rebuild, 16_recovery: Commands from system software. -/
def Obligations.HeartbeatsAndDiagnoses : Prop :=
  ∀ (s : State),
    (∀ die, die < 14 →
      let y := s.modDie die (fun d =>
        { d with missed := d.missed + 1, evidence := if d.missed = 0 then some s.now else d.evidence });
      (s.silent die = false →
        exec (.heartbeat die) s = .next (s.modDie die (fun d => { d with missed := 0, evidence := none }))) ∧
      (s.silent die = true → (s.dieAt die).missed < 2 → exec (.heartbeat die) s = .next (y.after 10000 (.heartbeat die))) ∧
      (s.silent die = true → 2 ≤ (s.dieAt die).missed → exec (.heartbeat die) s =
        .next ((y.modDie die (fun d => { d with missed := 0 })).push (.diagnosisOpen (if die < 12 then .die else .xdie) die)))) ∧
    (∀ cls e, s.pkg.diags.any (fun d => d.cls == cls && d.element == e) = false →
      let d : Diagnosis := { id := s.nextId, cls := cls, element := e, t0 := s.firstEvidence cls e };
      exec (.diagnosisOpen cls e) s = .next ((s.bumpId.modPkg (fun p => { p with diags := p.diags ++ [d] })).startDiag d)) ∧
    (∀ id d, s.findDiag id = some d →
      (d.step = 1 → exec (.pairAgreementTimeout id) s = .next (s.failDiag d)) ∧
      (d.step = 2 → d.confirms < s.needed d → exec (.confirmationTimeout id) s = .next (s.failDiag d)) ∧
      (d.step = 2 → s.needed d ≤ d.confirms → exec (.confirmationTimeout id) s = .next (s.passDiag d)) ∧
      (d.step = 0 → exec (.diagnosisRetry id) s = .next (s.startDiag d)) ∧
      (d.step = 1 →
        let n := s.neighbours.length;
        ∃ x y, exec (.pairAgreement id) s = .next x ∧ x.findDiag id = some y ∧ y.step = 2 ∧ y.element = d.element ∧
          x.timers = s.timers ++ [⟨s.now + 200000, .confirmationTimeout id⟩] ++
            List.replicate (n + if n < s.needed d then 1 else 0) ⟨s.now + 30000, .confirmationReply id (s.elementDead d)⟩) ∧
      (d.step = 2 → exec (.confirmationReply id false) s = .next (s.failDiag { d with denies := d.denies + 1 })) ∧
      (d.step = 2 →
        let n := s.neighbours.length;
        let got := d.confirms + if n ≤ d.confirms then max (s.needed d - n) 1 else 1;
        (s.needed d ≤ got → d.asked ≤ d.replies + 1 → exec (.confirmationReply id true) s =
          .next (s.passDiag { d with confirms := got, replies := d.replies + 1 })) ∧
        (got < s.needed d ∨ d.replies + 1 < d.asked → exec (.confirmationReply id true) s =
          .next (s.modDiag id (fun e => { e with confirms := got, replies := d.replies + 1 }))))) ∧
    (∀ pkg e,
      let ports := (List.range 8).filter (fun p => s.neighbour s.fabric.coord p == some pkg);
      exec (.neighbourProbe pkg e true) s = .next (s.note (.probeReply pkg e false)) ∧
      (ports ≠ [] → ports.all (fun p => (portLinks p).all (fun n => (s.link n).st == .down)) = true →
        exec (.neighbourProbe pkg e false) s = .next (((s.note (.probeReply pkg e true)).modPkg (fun p =>
          { p with voteBy := FMap.set pkg ((s.voters pkg).foldl min s.fabric.coord) p.voteBy })).push
          (.packageLossDiagnosis pkg (s.voters pkg).length)))) ∧
    (∀ pkg n, s.pkg.pkgLosses.find? (fun l => l.1 == pkg) = none →
      (pkg = s.fabric.coord ∨ n < min 3 (s.neighboursOf pkg) → exec (.packageLossDiagnosis pkg n) s = .next s) ∧
      (pkg ≠ s.fabric.coord → min 3 (s.neighboursOf pkg) ≤ n →
        let y := (s.modPkg (fun p => { p with pkgLosses := s.pkg.pkgLosses ++ [(pkg, s.now)] })).clearRedirects
          (fun r => r.tpkg == pkg);
        let tray := (y.pkg.pkgLosses.filter (fun l => l.1 % 2048 == pkg % 2048 && decide (s.now ≤ l.2 + 1000000) &&
          !s.pkg.pkgHandled.contains l.1)).map (·.1);
        (tray.length < 4 →
          exec (.packageLossDiagnosis pkg n) s = .next (y.after 1000000 (.packageLossDiagnosis pkg n))) ∧
        (4 ≤ tray.length → exec (.packageLossDiagnosis pkg n) s = .next (y.losePackages tray 10)))) ∧
    (∀ pkg n l, s.pkg.pkgLosses.find? (fun l => l.1 == pkg) = some l →
      (s.pkg.pkgHandled.contains pkg = true ∨ s.now < l.2 + 1000000 → exec (.packageLossDiagnosis pkg n) s = .next s) ∧
      (s.pkg.pkgHandled.contains pkg = false → l.2 + 1000000 ≤ s.now →
        exec (.packageLossDiagnosis pkg n) s = .next (s.losePackages [pkg] 9) ∧
        (∀ p, s.tasks.all (fun t => !(t.st.begun && wideGang t)) = true →
          (FMap.find s.pkg.voteBy pkg).all (fun x => x == s.fabric.coord) = true →
          let y := (s.modPkg (fun p => { p with pkgHandled := p.pkgHandled ++ [pkg] })).note (.reported 9 pkg);
          y.nearest pkg ((y.listedFor []).filter (fun p => p != pkg && p != y.fabric.coord && y.inShape p && !y.fencedPkg p &&
            !y.pkgTaken p && (List.range 14).all (fun n => !y.physUsed p n))) = some p →
          exec (.packageLossDiagnosis pkg n) s = .next ((y.addRedirect
            { valid := true, spkg := pkg, sdie := 15, tpkg := p }).spareFound (16 + pkg))))) ∧
    (∀ die, Config.isComputeDie die = true → s.liveDies.contains die = true →
      (s.dieAt die).lost = false → ∃ x, exec (.dieLoss die) s = .next x ∧ (x.dieAt die).lost = true ∧ s.memSame x ∧
        x.timers = s.timers ++ [⟨s.now + 10000, .heartbeat die⟩]) ∧
    (∀ die p, die < 12 → (s.mapAt die).fenced = true →
      s.pkg.localSpares.find? (fun q => (q < 9) == decide (die < 8)) = some p →
      s.jobs.all (fun j => !j.wants.contains die) = true →
      ∃ x, exec (.dieMapSwitch die) s = .next x ∧ x.mapAt die = { valid := true, phys := p } ∧ (x.dieAt die).lost = false ∧
        x.pkg.localSpares = s.pkg.localSpares.erase p ∧ (∀ k, dieOfSlot k = die → x.slotAt k = Slot.wiped) ∧
        (∀ a, fieldAt a 42 4 = die → Memory.read x.mem a = 0) ∧
        (∀ a, fieldAt a 42 4 ≠ die → Memory.read x.mem a = Memory.read s.mem a)) ∧
    (s.markLost.nextStripe = none → exec .stripeGroupRebuild s = .next s.markLost) ∧
    (∀ d, s.markLost.nextStripe = some d → s.markLost.deadSurvivors d = [] →
      exec .stripeGroupRebuild s = .next ((s.markLost.rebuildStripe d).after 1 .stripeGroupRebuild)) ∧
    (∀ x, let b := s.schedBlock x;
      exec (.schedCmdReserved x) s = .next (s.schedDone x 0x8000000000000004) ∧
      (s.findTask b.taskid = none → exec (.release x) s = .next (s.schedDone x 0x8000000000000001) ∧
        exec (.requeue x) s = .next (s.schedDone x 0x8000000000000001) ∧
        exec (.kill x) s = .next (s.schedDone x 0x8000000000000001) ∧
        exec (.saveaddr x) s = .next (s.schedDone x 0x8000000000000001)) ∧
      (∀ t, s.findTask b.taskid = some t → t.parked = true →
        exec (.requeue x) s = .next ((((s.strip t.id).restart t.id).settleJob t.job).schedDone x 0) ∧
        exec (.kill x) s = .next (((s.kill t.id 2).settleJob t.job).schedDone x 0) ∧
        (t.st = .rolledBack → exec (.release x) s = .next (((s.restart t.id).settleJob t.job).schedDone x 0)) ∧
        (t.st ≠ .rolledBack → exec (.release x) s = .next ((((s.modTask t.id (fun t =>
          { t with parked := false, saves := t.saves.map (fun a => { a with pinned := false }) })).unquietPart t.part).settleJob t.job).schedDone x 0))) ∧
      (∀ t a, s.findTask b.taskid = some t → (t.st = .preempted ∨ t.st = .swapped ∨ (t.st = .rolledBack ∧ t.parked = true)) →
        b.slot < t.decl.slots → t.saves.find? (fun a => a.j == b.slot) = some a →
        exec (.saveaddr x) s = .next ((s.modTask t.id (fun t =>
          { t with saves := t.saves.map (fun a => { a with pinned := true }) })).schedDone x
            (BitVec.ofNat 64 (a.address t.id t.savedAt % 2 ^ 60))) ∧
        (∀ p, a.spa = some p → a.address t.id t.savedAt = p)) ∧
      (∀ j, s.findJob b.job = some j → j.part = b.part →
        let c := b.arg.toNat % 8192;
        (j.spares.length < 16 → s.inShape c = true →
          ∃ z, exec (.spareadd x) s = .next z ∧ (z.findJob b.job).map (fun j => j.spares) = some (j.spares ++ [c]) ∧
            (z.schedBlock x).status = 0 ∧ (z.schedBlock x).busy = false) ∧
        (j.spares.contains c = true →
          ∃ z, exec (.sparedel x) s = .next z ∧ (z.findJob b.job).map (fun j => j.spares) = some (j.spares.erase c) ∧
            (z.schedBlock x).status = 0 ∧ (z.schedBlock x).busy = false)))

/-- The power controller, power loss and bring-up, the life cycle, and writes of control space. 17_retire: The package
power controller, 17_retire: Bring-up, 04_placement: The system physical address. -/
def Obligations.PowerAndControlSpace : Prop :=
  ∀ (s : State),
    (∀ power temps draws, ∃ x, exec (.powerControlTick power temps draws) s = .next x ∧ s.memSame x ∧
      x.pkg.power.pnow = power ∧ x.pkg.power.tmax = temps.foldl max 0 ∧ x.pkg.power.pbudget = s.pkg.power.pbudget ∧
      (∀ d, s.liveDies.contains d = true → 100 ≤ temps.getD d 0 → (x.dieAt d).hot = true) ∧
      (min s.pkg.power.pbudget 4400 < power → ∀ d, (x.dieAt d).mhz ≤ (s.dieAt d).mhz) ∧
      (temps.any (fun t => 115 ≤ t) = true → x.agenda = s.agenda ++ [.packagePowerRemoved]) ∧
      (temps.any (fun t => 115 ≤ t) = false → x.agenda = s.agenda)) ∧
    exec .packagePowerRemoved s = .next (s.modPkg (fun p => { p with poweredOff := true })) ∧
    (∀ (cal : BitVec 16) sig firm, ∃ x, exec (.powerGood cal sig firm) s = .next x ∧ x.pkg.poweredOff = false ∧ x.mem = [] ∧
      x.full = [] ∧ x.slots = [] ∧ x.cores = [] ∧ x.tasks = [] ∧ x.agenda = [] ∧ x.now = s.now ∧ x.bootCycle = s.cycle ∧
      (sig = false → x.pkg.status.ready = false ∧ x.pkg.status.errcode = 1) ∧
      (sig = true → firm = false → x.pkg.status.ready = false ∧ x.pkg.status.errcode = 2) ∧
      (sig = true → firm = true → cal = 0 → x.pkg.status.ready = true ∧ x.pkg.status.degraded = false ∧
        x.pkg.status.errcode = 0 ∧ x.liveDies = List.range 12)) ∧
    (∀ lcs : BitVec 2, s.pkg.status.ready = true ∨ s.pkg.status.step ≠ 4 →
      ∃ x, exec (.lcsChange lcs) s = .next x ∧ x.mem = [] ∧ x.full = [] ∧ x.slots = [] ∧ x.cores = [] ∧ x.tasks = [] ∧
        x.parts = [] ∧ x.pkg.keys = [] ∧ x.pkg.map = s.pkg.map ∧ x.pkg.status.lcs = s.pkg.status.lcs ∧
        x.pkg.status.ready = false ∧ x.pkg.status.step = 4 ∧ x.fabric = s.fabric.wiped ∧
        x.timers.getLast? = some ⟨s.now + 100000000, .lcsChange lcs⟩) ∧
    (∀ lcs : BitVec 2, s.pkg.status.ready = false → s.pkg.status.step = 4 →
      (s.timers.any (fun t => t.ev == .lcsChange lcs) = true → exec (.lcsChange lcs) s = .next s) ∧
      (s.timers.any (fun t => t.ev == .lcsChange lcs) = false → exec (.lcsChange lcs) s = .next (s.modPkg (fun p =>
        { p with status := { p.status with lcs := lcs.toNat, ready := true, step := 5 } })))) ∧
    (∀ die o, s.pkg.status.ready = false →
      s.askControl die o = if (die = 12 ∨ die = 13) ∧ o = 0 then .ok (s.readControl die o) else .error 1) ∧
    (∀ die o v, (s.pkg.status.ready = false ∨ o % 8 ≠ 0) → exec (.controlRegisterWrite die o v) s = .next s) ∧
    (∀ die (v : BitVec 64), s.pkg.status.ready = true → die < 12 → s.dieCode die = 0 → (s.dieAt die).lost = false →
      exec (.controlRegisterWrite die 0x1000 v) s =
        .next (s.modDie die (fun d => { d with balint := BitVec.ofNat 64 (v.toNat % 2 ^ 17) })) ∧
      (∀ n i, n < 65536 → i < 4 → exec (.controlRegisterWrite die (0x200000 + 32 * n + 8 * i) v) s =
        .next (s.modDie die (fun d =>
          let new : Range := rangeOf (putField (FMap.get {} d.ranges n).toNat (64 * i) 64 v.toNat);
          { d with ranges := FMap.set n new d.ranges }))) ∧
      (∀ a, a < 1024 → exec (.controlRegisterWrite die (0x100000 + 8 * a) v) s =
        .next (s.modDie die (fun d =>
          let old : AsidCtl := FMap.get {} d.asids a;
          let new : AsidCtl :=
            { old with part := fieldAt v.toNat 42 6, owned := bitAt v.toNat 41, taskrc := bitAt v.toNat 40 };
          { d with asids := FMap.set a new d.asids }))) ∧
      (∃ y, exec (.controlRegisterWrite die 0x1000 v) s = .next y ∧
        y.readControl die 0x1000 = BitVec.ofNat 64 (v.toNat % 2 ^ 17)) ∧
      (∀ a, a < 1024 → ∃ y, exec (.controlRegisterWrite die (0x100000 + 8 * a) v) s = .next y ∧
        y.readControl die (0x100000 + 8 * a) =
          BitVec.ofNat 64 (v.toNat / 2 ^ 40 % 256 * 2 ^ 40 + (s.asidCtl die a).ver * 2 ^ 48)) ∧
      (∀ i, i < 32 → ∃ y, exec (.controlRegisterWrite die (0x100 + 8 * i) v) s = .next y ∧
        y.readControl die (0x100 + 8 * i) = v &&& 0x8FFFFFFFC000000F ∧
        ∀ j, j ≠ i → FMap.get {} y.fabric.redirects j = FMap.get {} s.fabric.redirects j)) ∧
    (∀ x part, x = 12 ∨ x = 13 → part < 64 →
      s.readControl x (0x101000 + 8 * part) = 0 ∧ s.readControl x (0x104000 + 64 * part + 8) = 0) ∧
    (∀ x (v : BitVec 64), s.xdieUp x = true →
      (∀ part, part < 64 → exec (.controlRegisterWrite x (0x101000 + 8 * part) v) s = .next (s.push (.doorbell x part v)) ∧
        exec (.controlRegisterWrite x (0x104000 + 64 * part + 56) v) s = .next (s.writeCfg part .energy v.toNat) ∧
        exec (.controlRegisterWrite x (0x105000 + 64 * part + 56) v) s =
          .next (s.modPol part (fun p => { p with image := v.toNat % 2 ^ 60 }))) ∧
      (∀ part, part < 64 → exec (.controlRegisterWrite x (0x104000 + 64 * part + 8) v) s = .next (s.addEnergy part v.toNat)) ∧
      ((s.rangeBlock x).busy = true → ∀ i, i < 3 → exec (.controlRegisterWrite x (0x200000 + 8 * i) v) s = .next s) ∧
      ((s.rangeBlock x).busy = false → exec (.controlRegisterWrite x 0x200008 v) s =
        .next (s.modRangeBlock x (fun b => { b with image := v.toNat % 2 ^ 60 }))) ∧
      exec (.controlRegisterWrite x 0x300100 v) s = .next (s.modFabric (fun f =>
        { f with tobase := fieldAt v.toNat 16 16, detours := fieldAt v.toNat 2 2 })) ∧
      exec (.controlRegisterWrite x 0x400000 v) s = .next (s.modPkg (fun p =>
        { p with power := { p.power with pbudget := fieldAt v.toNat 48 16 } })) ∧
      ((s.schedBlock x).busy = true → exec (.controlRegisterWrite x 0x500000 v) s = .next s) ∧
      ((s.schedBlock x).busy = false → bitAt v.toNat 8 = true → ∃ y, exec (.controlRegisterWrite x 0x500000 v) s = .next y ∧
        (y.schedBlock x).busy = true ∧ (y.schedBlock x).cmd = fieldAt v.toNat 0 4 ∧
        y.agenda = s.agenda ++ [schedEvent x (fieldAt v.toNat 0 4)]))

/-- Reset leaves empty memories, registers that are zero and empty, no task, every die live and the package READY. 17_retire: Bring-up,
04_placement: The die map, 05_encoding: Registers. -/
def Obligations.ResetValues : Prop :=
  State.reset.memoryWf ∧ State.reset.mem = [] ∧ State.reset.full = [] ∧ State.reset.slots = [] ∧ State.reset.cores = [] ∧
    State.reset.tasks = [] ∧ State.reset.msgs = [] ∧ State.reset.cmds = [] ∧ State.reset.agenda = [] ∧
    State.reset.cycle = 0 ∧ State.reset.pkg.status.ready = true ∧ State.reset.pkg.status.degraded = false ∧
    State.reset.pkg.status.errcode = 0 ∧ State.reset.pkg.poweredOff = false ∧ State.reset.pkg.keys = [] ∧
    State.reset.liveDies = List.range 12 ∧ State.reset.pkg.localSpares = [8, 13] ∧
    (∀ a, Memory.read State.reset.mem a = 0) ∧ (∀ d, (State.reset.dieAt d).interval = 4096) ∧
    (∀ d, (State.reset.dieAt d).ranges = []) ∧ (∀ n, (FMap.get {} State.reset.fabric.links n).st = .down) ∧
    (∀ k (r : Fin 32), (State.reset.slotAt k).reg r = 0 ∧ (State.reset.slotAt k).ready r = (r == 0) ∧
      (State.reset.slotAt k).csr.fcsr = 2 ^ 40 ∧ (State.reset.slotAt k).csr.tvec = 0 ∧ (State.reset.slotAt k).intrap = false ∧
      (State.reset.slotAt k).claim = none ∧ (State.reset.slotAt k).bb.cnt = 0)

/-- An instruction that writes one general register changes nothing else. 05_encoding: Registers, 06_scalar: Full,
empty and pending registers. -/
def Obligations.WroteFrame : Prop :=
  ∀ (s : State) (d : Fin 32) (v : Word),
    s.retiredWith (s.wrote d v) d v ∧ s.memSame (s.wrote d v) ∧ (s.wrote d v).curSlot.csr = s.curSlot.csr ∧
      (s.wrote d v).curSlot.hold = s.curSlot.hold ∧ (s.wrote d v).cores = s.cores ∧ (s.wrote d v).clusters = s.clusters ∧
      (s.wrote d v).dies = s.dies ∧ (s.wrote d v).tasks = s.tasks ∧ (s.wrote d v).msgs = s.msgs ∧
      (s.wrote d v).full = s.full ∧ (s.wrote d v).pkg = s.pkg ∧ (s.wrote d v).agenda = s.agenda ∧ (s.wrote 0 v).reg 0 = 0

/-- Words written out from the opcode map decode to the instructions that they stand for. 05_encoding: Instruction
words, 05_encoding: Function codes, 05_encoding: Floating-point function codes, 05_encoding: Vector and engine
function codes, 05_encoding: Assembly language. -/
def Obligations.DecodeWords : Prop :=
  decodeTableWord 32 0x48A42010 = some (.ldfe 5 4 false 2 2) ∧
  decodeTableWord 32 0x04C62A00 = some (.add 6 6 5 false true) ∧
  decodeTableWord 32 0x08840020 = some (.addi 4 4 false 32) ∧
  decodeTableWord 32 0x2487FFFD = some (.bne 4 7 65533) ∧
  decodeTableWord 32 0x9C001400 = some (.wait 5) ∧
  decodeTableWord 32 0x3C010000 = some (.jalr 0 1 false 0) ∧
  decodeTableWord 32 0x0E360002 = some (.lhi 17 1441794) ∧
  decodeTableWord 32 0x16328149 = some (.bfx 17 18 true 5 9) ∧
  decodeTableWord 32 0x1A20006E = some (.bbget 17 46) ∧
  decodeTableWord 32 0x3A360002 = some (.jal 17 1441794) ∧
  decodeTableWord 32 0x4232EB04 = some (.ld 17 18 true 2820) ∧
  decodeTableWord 32 0x4632BB04 = some (.sd 17 18 true 2820) ∧
  decodeTableWord 32 0x4E329A00 = some (.amoadd 17 18 19 false true false) ∧
  decodeTableWord 32 0x52320410 = some (.rld 17 18 true 1 0) ∧
  decodeTableWord 32 0x56320003 = some (.acq 17 18 3) ∧
  decodeTableWord 32 0x58114162 = some (.cwb 17 354) ∧
  decodeTableWord 32 0x62329A13 = some (.fadd 17 18 19 false true 2 3) ∧
  decodeTableWord 32 0x66329D16 = some (.fma 17 18 19 20 true 3) ∧
  decodeTableWord 32 0x6A32005A = some (.fcvt 17 18 0 false 1 3 2) ∧
  decodeTableWord 32 0x6E320410 = some (.fexp2 17 18 true 2) ∧
  decodeTableWord 32 0x6C1195B0 = some (.xacc 17 18 true false 2) ∧
  decodeTableWord 32 0x80642803 = some (.vadd 3 4 5 3) ∧
  decodeTableWord 32 0x84720408 = some (.vld 3 18 true) ∧
  decodeTableWord 32 0x8876CA74 = some (.mm16 5 178 19 20) ∧
  decodeTableWord 32 0x8C16CA74 = some (.mgv 5 178 19 20) ∧
  decodeTableWord 32 0x9016CA74 = some (.send 5 178 19 20) ∧
  decodeTableWord 32 0x9416CA74 = some (.xreq 5 178 19 20) ∧
  decodeTableWord 32 0x98B6CA60 = some (.engw 45 178 19) ∧
  decodeTableWord 32 0x9C36CA74 = some (.tokq 5 178 19 20) ∧
  decodeTableWord 32 0xC2203020 = some (.csrr 17 32) ∧
  decodeTableWord 32 0xC6320000 = some (.spawn 17 18) ∧
  decodeTableWord 32 0 = none ∧ decodeTableWord 32 0xFC000000 = none ∧ decodeTableWord 32 0x1C000000 = none ∧
  decodeTableWord 32 0x04000400 = some (.add 0 0 0 true false) ∧ decodeTableWord 32 0x0400001E = none ∧
  (∀ nbits w, nbits ≠ 32 → decodeTableWord nbits w = none)

/-- Every well-formed instruction has one word, and decoding that word gives the instruction back. 05_encoding:
Instruction words, 05_encoding: Function codes, 05_encoding: Floating-point function codes, 05_encoding: Vector and
engine function codes. -/
def Obligations.EncodeDecodeRoundTrip : Prop :=
  (∀ i : Instr, i.wf = true → ∃ w, encode i = some w ∧ w < 2 ^ 32 ∧ decode w = some i) ∧
  (∀ i : Instr, i.wf = false → (∀ w, decode w ≠ some i)) ∧
  (∀ w i, w < 2 ^ 32 → decode w = some i → encode i = some w)

/-- Every step keeps memory in its canonical form. 08_memory_ops: Where an access goes, 17_retire: Bring-up. -/
def Obligations.StepKeepsMemoryCanonical : Prop :=
  ∀ (s t : State), s.memoryWf → step s = .next t → t.memoryWf

/-- No instruction stops the machine; a step faults only without package power. 17_retire: The package power
controller. -/
def Obligations.EveryInstructionAnswers : Prop :=
  (∀ (i : Instr) (s : State), ∃ t, exec i s = .next t) ∧
  (∀ s : State, (∃ t, step s = .next t) ∨ (s.pkg.poweredOff = true ∧ step s = .fault .packageOff)) ∧
  (∀ s : State, s.pkg.poweredOff = false → ∃ t, step s = .next t) ∧
  (∀ s : State, s.pkg.poweredOff = true → (∀ e rest, s.agenda = e :: rest → isPowerGood e = false) →
    step s = .fault .packageOff)

/-- A step runs the instruction that the word at the program counter decodes to. 06_scalar: The rotation, 05_encoding:
Fetch and branch targets. -/
def Obligations.StepRunsDecodedInstruction : Prop :=
  ∀ (s : State) (w : Nat), s.agenda = [] → s.pkg.poweredOff = false → s.canRun s.cur = true → s.curSlot.hold = none →
    s.curSlot.reissue = false → s.curSlot.yielding = 0 → (s.curSlot.intrap = true ∨ s.curSlot.pend = []) →
    s.translationHeld (s.asidOf s.cur) = false → s.twin s.cur = none → (s.curSlot.blocked && s.speculative s.cur) = false →
    let c := coreOfSlot s.cur;
    let v := s.curSlot.pc.toNat;
    let s' := s.modCore c (fun c => c.touchI (s.asidOf s.cur) (v / 32));
    (∀ a l, v % 4 = 0 → s.fetchSpa s.cur s.curSlot.pc = some a → (s.home a).win = .dram →
      (s.coreAt c).findI (s.asidOf s.cur) (v / 32) = some l → l.refetch.contains s.cur = false →
      s.fetch s.cur = .word (l.words.getD (v / 4 % 8) 0)) ∧
    (s.fetch s.cur = .word w →
      (∀ i, decode w = some i → s'.publishGate i = none → step s = endTurn (exec i s')) ∧
      (∀ i t, decode w = some i → s'.publishGate i = some t → step s = endTurn (.next t)) ∧
      (∀ i, (headOnly i = false ∨ s'.speculative s'.cur = true ∨ s'.ownSpec (s'.slotTask s'.cur).id = []) →
        s'.publishGate i = none) ∧
      (decode w = none → step s = endTurn (exec (.illegalInstruction (BitVec.ofNat 32 w)) s'))) ∧
    s'.curSlot = s.curSlot ∧ s.memSame s' ∧ (∀ t : State, endTurn (.next t) = .next t.advance) ∧
    (∀ e rest (t : State), t.agenda = e :: rest → t.pkg.poweredOff = false →
      step t = runEvent e { t with agenda := rest, freeCtr := t.freeCtr + 1 })
end

