-- ==== Sys2Proof/Laws/Slot.lean ====
section
/-!
SUPPORT. The fields of a slot after each named update, and its registers: what is written reads back, and every
other register stays.
-/
namespace Sys2Proof
namespace Machine

/-! `setReg` -/

@[simp] theorem Slot.setReg_owner (x : Slot) (r : Fin 32) (v : Word) : (x.setReg r v).owner = x.owner := by unfold Slot.setReg; split <;> rfl
@[simp] theorem Slot.setReg_kept (x : Slot) (r : Fin 32) (v : Word) : (x.setReg r v).kept = x.kept := by unfold Slot.setReg; split <;> rfl
@[simp] theorem Slot.setReg_bind (x : Slot) (r : Fin 32) (v : Word) : (x.setReg r v).bind = x.bind := by unfold Slot.setReg; split <;> rfl
@[simp] theorem Slot.setReg_pc (x : Slot) (r : Fin 32) (v : Word) : (x.setReg r v).pc = x.pc := by unfold Slot.setReg; split <;> rfl
@[simp] theorem Slot.setReg_csr (x : Slot) (r : Fin 32) (v : Word) : (x.setReg r v).csr = x.csr := by unfold Slot.setReg; split <;> rfl
@[simp] theorem Slot.setReg_bb (x : Slot) (r : Fin 32) (v : Word) : (x.setReg r v).bb = x.bb := by unfold Slot.setReg; split <;> rfl
@[simp] theorem Slot.setReg_pix (x : Slot) (r : Fin 32) (v : Word) : (x.setReg r v).pix = x.pix := by unfold Slot.setReg; split <;> rfl
@[simp] theorem Slot.setReg_pixAt (x : Slot) (r : Fin 32) (v : Word) : (x.setReg r v).pixAt = x.pixAt := by unfold Slot.setReg; split <;> rfl
@[simp] theorem Slot.setReg_eng (x : Slot) (r : Fin 32) (v : Word) : (x.setReg r v).eng = x.eng := by unfold Slot.setReg; split <;> rfl
@[simp] theorem Slot.setReg_tok (x : Slot) (r : Fin 32) (v : Word) : (x.setReg r v).tok = x.tok := by unfold Slot.setReg; split <;> rfl
@[simp] theorem Slot.setReg_claim (x : Slot) (r : Fin 32) (v : Word) : (x.setReg r v).claim = x.claim := by unfold Slot.setReg; split <;> rfl
@[simp] theorem Slot.setReg_vreg (x : Slot) (r : Fin 32) (v : Word) : (x.setReg r v).vreg = x.vreg := by unfold Slot.setReg; split <;> rfl
@[simp] theorem Slot.setReg_hold (x : Slot) (r : Fin 32) (v : Word) : (x.setReg r v).hold = x.hold := by unfold Slot.setReg; split <;> rfl
@[simp] theorem Slot.setReg_wake (x : Slot) (r : Fin 32) (v : Word) : (x.setReg r v).wake = x.wake := by unfold Slot.setReg; split <;> rfl
@[simp] theorem Slot.setReg_yielding (x : Slot) (r : Fin 32) (v : Word) : (x.setReg r v).yielding = x.yielding := by unfold Slot.setReg; split <;> rfl
@[simp] theorem Slot.setReg_ended (x : Slot) (r : Fin 32) (v : Word) : (x.setReg r v).ended = x.ended := by unfold Slot.setReg; split <;> rfl
@[simp] theorem Slot.setReg_stopped (x : Slot) (r : Fin 32) (v : Word) : (x.setReg r v).stopped = x.stopped := by unfold Slot.setReg; split <;> rfl
@[simp] theorem Slot.setReg_issued (x : Slot) (r : Fin 32) (v : Word) : (x.setReg r v).issued = x.issued := by unfold Slot.setReg; split <;> rfl
@[simp] theorem Slot.setReg_lost (x : Slot) (r : Fin 32) (v : Word) : (x.setReg r v).lost = x.lost := by unfold Slot.setReg; split <;> rfl
@[simp] theorem Slot.setReg_idle (x : Slot) (r : Fin 32) (v : Word) : (x.setReg r v).idle = x.idle := by unfold Slot.setReg; split <;> rfl
@[simp] theorem Slot.setReg_reissue (x : Slot) (r : Fin 32) (v : Word) : (x.setReg r v).reissue = x.reissue := by unfold Slot.setReg; split <;> rfl
@[simp] theorem Slot.setReg_stamp (x : Slot) (r : Fin 32) (v : Word) : (x.setReg r v).stamp = x.stamp := by unfold Slot.setReg; split <;> rfl
@[simp] theorem Slot.setReg_pend (x : Slot) (r : Fin 32) (v : Word) : (x.setReg r v).pend = x.pend := by unfold Slot.setReg; split <;> rfl

/-! `setSt` -/

@[simp] theorem Slot.setSt_owner (x : Slot) (r : Fin 32) (t : RegState) : (x.setSt r t).owner = x.owner := by unfold Slot.setSt; split <;> rfl
@[simp] theorem Slot.setSt_kept (x : Slot) (r : Fin 32) (t : RegState) : (x.setSt r t).kept = x.kept := by unfold Slot.setSt; split <;> rfl
@[simp] theorem Slot.setSt_bind (x : Slot) (r : Fin 32) (t : RegState) : (x.setSt r t).bind = x.bind := by unfold Slot.setSt; split <;> rfl
@[simp] theorem Slot.setSt_pc (x : Slot) (r : Fin 32) (t : RegState) : (x.setSt r t).pc = x.pc := by unfold Slot.setSt; split <;> rfl
@[simp] theorem Slot.setSt_csr (x : Slot) (r : Fin 32) (t : RegState) : (x.setSt r t).csr = x.csr := by unfold Slot.setSt; split <;> rfl
@[simp] theorem Slot.setSt_bb (x : Slot) (r : Fin 32) (t : RegState) : (x.setSt r t).bb = x.bb := by unfold Slot.setSt; split <;> rfl
@[simp] theorem Slot.setSt_pix (x : Slot) (r : Fin 32) (t : RegState) : (x.setSt r t).pix = x.pix := by unfold Slot.setSt; split <;> rfl
@[simp] theorem Slot.setSt_pixAt (x : Slot) (r : Fin 32) (t : RegState) : (x.setSt r t).pixAt = x.pixAt := by unfold Slot.setSt; split <;> rfl
@[simp] theorem Slot.setSt_eng (x : Slot) (r : Fin 32) (t : RegState) : (x.setSt r t).eng = x.eng := by unfold Slot.setSt; split <;> rfl
@[simp] theorem Slot.setSt_tok (x : Slot) (r : Fin 32) (t : RegState) : (x.setSt r t).tok = x.tok := by unfold Slot.setSt; split <;> rfl
@[simp] theorem Slot.setSt_claim (x : Slot) (r : Fin 32) (t : RegState) : (x.setSt r t).claim = x.claim := by unfold Slot.setSt; split <;> rfl
@[simp] theorem Slot.setSt_vreg (x : Slot) (r : Fin 32) (t : RegState) : (x.setSt r t).vreg = x.vreg := by unfold Slot.setSt; split <;> rfl
@[simp] theorem Slot.setSt_hold (x : Slot) (r : Fin 32) (t : RegState) : (x.setSt r t).hold = x.hold := by unfold Slot.setSt; split <;> rfl
@[simp] theorem Slot.setSt_wake (x : Slot) (r : Fin 32) (t : RegState) : (x.setSt r t).wake = x.wake := by unfold Slot.setSt; split <;> rfl
@[simp] theorem Slot.setSt_yielding (x : Slot) (r : Fin 32) (t : RegState) : (x.setSt r t).yielding = x.yielding := by unfold Slot.setSt; split <;> rfl
@[simp] theorem Slot.setSt_ended (x : Slot) (r : Fin 32) (t : RegState) : (x.setSt r t).ended = x.ended := by unfold Slot.setSt; split <;> rfl
@[simp] theorem Slot.setSt_stopped (x : Slot) (r : Fin 32) (t : RegState) : (x.setSt r t).stopped = x.stopped := by unfold Slot.setSt; split <;> rfl
@[simp] theorem Slot.setSt_issued (x : Slot) (r : Fin 32) (t : RegState) : (x.setSt r t).issued = x.issued := by unfold Slot.setSt; split <;> rfl
@[simp] theorem Slot.setSt_lost (x : Slot) (r : Fin 32) (t : RegState) : (x.setSt r t).lost = x.lost := by unfold Slot.setSt; split <;> rfl
@[simp] theorem Slot.setSt_idle (x : Slot) (r : Fin 32) (t : RegState) : (x.setSt r t).idle = x.idle := by unfold Slot.setSt; split <;> rfl
@[simp] theorem Slot.setSt_reissue (x : Slot) (r : Fin 32) (t : RegState) : (x.setSt r t).reissue = x.reissue := by unfold Slot.setSt; split <;> rfl
@[simp] theorem Slot.setSt_stamp (x : Slot) (r : Fin 32) (t : RegState) : (x.setSt r t).stamp = x.stamp := by unfold Slot.setSt; split <;> rfl
@[simp] theorem Slot.setSt_pend (x : Slot) (r : Fin 32) (t : RegState) : (x.setSt r t).pend = x.pend := by unfold Slot.setSt; split <;> rfl

/-! `noteIssue` -/

@[simp] theorem Slot.noteIssue_owner (x : Slot) : (x.noteIssue).owner = x.owner := by unfold Slot.noteIssue; dsimp only; split <;> split <;> rfl
@[simp] theorem Slot.noteIssue_kept (x : Slot) : (x.noteIssue).kept = x.kept := by unfold Slot.noteIssue; dsimp only; split <;> split <;> rfl
@[simp] theorem Slot.noteIssue_bind (x : Slot) : (x.noteIssue).bind = x.bind := by unfold Slot.noteIssue; dsimp only; split <;> split <;> rfl
@[simp] theorem Slot.noteIssue_pc (x : Slot) : (x.noteIssue).pc = x.pc := by unfold Slot.noteIssue; dsimp only; split <;> split <;> rfl
@[simp] theorem Slot.noteIssue_g (x : Slot) : (x.noteIssue).g = x.g := by unfold Slot.noteIssue; dsimp only; split <;> split <;> rfl
@[simp] theorem Slot.noteIssue_csr (x : Slot) : (x.noteIssue).csr = x.csr := by unfold Slot.noteIssue; dsimp only; split <;> split <;> rfl
@[simp] theorem Slot.noteIssue_bb (x : Slot) : (x.noteIssue).bb = x.bb := by unfold Slot.noteIssue; dsimp only; split <;> split <;> rfl
@[simp] theorem Slot.noteIssue_eng (x : Slot) : (x.noteIssue).eng = x.eng := by unfold Slot.noteIssue; dsimp only; split <;> split <;> rfl
@[simp] theorem Slot.noteIssue_tok (x : Slot) : (x.noteIssue).tok = x.tok := by unfold Slot.noteIssue; dsimp only; split <;> split <;> rfl
@[simp] theorem Slot.noteIssue_claim (x : Slot) : (x.noteIssue).claim = x.claim := by unfold Slot.noteIssue; dsimp only; split <;> split <;> rfl
@[simp] theorem Slot.noteIssue_vreg (x : Slot) : (x.noteIssue).vreg = x.vreg := by unfold Slot.noteIssue; dsimp only; split <;> split <;> rfl
@[simp] theorem Slot.noteIssue_hold (x : Slot) : (x.noteIssue).hold = x.hold := by unfold Slot.noteIssue; dsimp only; split <;> split <;> rfl
@[simp] theorem Slot.noteIssue_wake (x : Slot) : (x.noteIssue).wake = x.wake := by unfold Slot.noteIssue; dsimp only; split <;> split <;> rfl
@[simp] theorem Slot.noteIssue_yielding (x : Slot) : (x.noteIssue).yielding = x.yielding := by unfold Slot.noteIssue; dsimp only; split <;> split <;> rfl
@[simp] theorem Slot.noteIssue_ended (x : Slot) : (x.noteIssue).ended = x.ended := by unfold Slot.noteIssue; dsimp only; split <;> split <;> rfl
@[simp] theorem Slot.noteIssue_stopped (x : Slot) : (x.noteIssue).stopped = x.stopped := by unfold Slot.noteIssue; dsimp only; split <;> split <;> rfl
@[simp] theorem Slot.noteIssue_lost (x : Slot) : (x.noteIssue).lost = (if x.reissue then x.lost + 1 else x.lost) := by unfold Slot.noteIssue; dsimp only; split <;> split <;> rfl
@[simp] theorem Slot.noteIssue_stamp (x : Slot) : (x.noteIssue).stamp = x.stamp := by unfold Slot.noteIssue; dsimp only; split <;> split <;> rfl
@[simp] theorem Slot.noteIssue_pend (x : Slot) : (x.noteIssue).pend = x.pend := by unfold Slot.noteIssue; dsimp only; split <;> split <;> rfl

/-! `retire` -/

@[simp] theorem Slot.retire_owner (x : Slot) : (x.retire).owner = x.owner := by simp [Slot.retire]
@[simp] theorem Slot.retire_kept (x : Slot) : (x.retire).kept = x.kept := by simp [Slot.retire]
@[simp] theorem Slot.retire_bind (x : Slot) : (x.retire).bind = x.bind := by simp [Slot.retire]
@[simp] theorem Slot.retire_g (x : Slot) : (x.retire).g = x.g := by simp [Slot.retire]
@[simp] theorem Slot.retire_csr (x : Slot) : (x.retire).csr = x.csr := by simp [Slot.retire]
@[simp] theorem Slot.retire_bb (x : Slot) : (x.retire).bb = x.bb := by simp [Slot.retire]
@[simp] theorem Slot.retire_eng (x : Slot) : (x.retire).eng = x.eng := by simp [Slot.retire]
@[simp] theorem Slot.retire_tok (x : Slot) : (x.retire).tok = x.tok := by simp [Slot.retire]
@[simp] theorem Slot.retire_claim (x : Slot) : (x.retire).claim = x.claim := by simp [Slot.retire]
@[simp] theorem Slot.retire_vreg (x : Slot) : (x.retire).vreg = x.vreg := by simp [Slot.retire]
@[simp] theorem Slot.retire_hold (x : Slot) : (x.retire).hold = x.hold := by simp [Slot.retire]
@[simp] theorem Slot.retire_wake (x : Slot) : (x.retire).wake = x.wake := by simp [Slot.retire]
@[simp] theorem Slot.retire_yielding (x : Slot) : (x.retire).yielding = x.yielding := by simp [Slot.retire]
@[simp] theorem Slot.retire_ended (x : Slot) : (x.retire).ended = x.ended := by simp [Slot.retire]
@[simp] theorem Slot.retire_stopped (x : Slot) : (x.retire).stopped = x.stopped := by simp [Slot.retire]
@[simp] theorem Slot.retire_lost (x : Slot) : (x.retire).lost = (if x.reissue then x.lost + 1 else x.lost) := by simp [Slot.retire]
@[simp] theorem Slot.retire_stamp (x : Slot) : (x.retire).stamp = x.stamp := by simp [Slot.retire]
@[simp] theorem Slot.retire_pend (x : Slot) : (x.retire).pend = x.pend := by simp [Slot.retire]

/-! `bubble` -/

@[simp] theorem Slot.bubble_owner (x : Slot) : (x.bubble).owner = x.owner := rfl
@[simp] theorem Slot.bubble_kept (x : Slot) : (x.bubble).kept = x.kept := rfl
@[simp] theorem Slot.bubble_bind (x : Slot) : (x.bubble).bind = x.bind := rfl
@[simp] theorem Slot.bubble_pc (x : Slot) : (x.bubble).pc = x.pc := rfl
@[simp] theorem Slot.bubble_g (x : Slot) : (x.bubble).g = x.g := rfl
@[simp] theorem Slot.bubble_csr (x : Slot) : (x.bubble).csr = x.csr := rfl
@[simp] theorem Slot.bubble_bb (x : Slot) : (x.bubble).bb = x.bb := rfl
@[simp] theorem Slot.bubble_pix (x : Slot) : (x.bubble).pix = x.pix := rfl
@[simp] theorem Slot.bubble_pixAt (x : Slot) : (x.bubble).pixAt = x.pixAt := rfl
@[simp] theorem Slot.bubble_eng (x : Slot) : (x.bubble).eng = x.eng := rfl
@[simp] theorem Slot.bubble_tok (x : Slot) : (x.bubble).tok = x.tok := rfl
@[simp] theorem Slot.bubble_claim (x : Slot) : (x.bubble).claim = x.claim := rfl
@[simp] theorem Slot.bubble_vreg (x : Slot) : (x.bubble).vreg = x.vreg := rfl
@[simp] theorem Slot.bubble_hold (x : Slot) : (x.bubble).hold = x.hold := rfl
@[simp] theorem Slot.bubble_wake (x : Slot) : (x.bubble).wake = x.wake := rfl
@[simp] theorem Slot.bubble_yielding (x : Slot) : (x.bubble).yielding = x.yielding := rfl
@[simp] theorem Slot.bubble_ended (x : Slot) : (x.bubble).ended = x.ended := rfl
@[simp] theorem Slot.bubble_stopped (x : Slot) : (x.bubble).stopped = x.stopped := rfl
@[simp] theorem Slot.bubble_issued (x : Slot) : (x.bubble).issued = x.issued := rfl
@[simp] theorem Slot.bubble_reissue (x : Slot) : (x.bubble).reissue = x.reissue := rfl
@[simp] theorem Slot.bubble_stamp (x : Slot) : (x.bubble).stamp = x.stamp := rfl
@[simp] theorem Slot.bubble_pend (x : Slot) : (x.bubble).pend = x.pend := rfl

/-! `pause` -/

@[simp] theorem Slot.pause_owner (x : Slot) : (x.pause).owner = x.owner := rfl
@[simp] theorem Slot.pause_kept (x : Slot) : (x.pause).kept = x.kept := rfl
@[simp] theorem Slot.pause_bind (x : Slot) : (x.pause).bind = x.bind := rfl
@[simp] theorem Slot.pause_pc (x : Slot) : (x.pause).pc = x.pc := rfl
@[simp] theorem Slot.pause_g (x : Slot) : (x.pause).g = x.g := rfl
@[simp] theorem Slot.pause_csr (x : Slot) : (x.pause).csr = x.csr := rfl
@[simp] theorem Slot.pause_bb (x : Slot) : (x.pause).bb = x.bb := rfl
@[simp] theorem Slot.pause_pix (x : Slot) : (x.pause).pix = x.pix := rfl
@[simp] theorem Slot.pause_pixAt (x : Slot) : (x.pause).pixAt = x.pixAt := rfl
@[simp] theorem Slot.pause_eng (x : Slot) : (x.pause).eng = x.eng := rfl
@[simp] theorem Slot.pause_tok (x : Slot) : (x.pause).tok = x.tok := rfl
@[simp] theorem Slot.pause_claim (x : Slot) : (x.pause).claim = x.claim := rfl
@[simp] theorem Slot.pause_vreg (x : Slot) : (x.pause).vreg = x.vreg := rfl
@[simp] theorem Slot.pause_hold (x : Slot) : (x.pause).hold = x.hold := rfl
@[simp] theorem Slot.pause_wake (x : Slot) : (x.pause).wake = x.wake := rfl
@[simp] theorem Slot.pause_yielding (x : Slot) : (x.pause).yielding = x.yielding := rfl
@[simp] theorem Slot.pause_ended (x : Slot) : (x.pause).ended = x.ended := rfl
@[simp] theorem Slot.pause_stopped (x : Slot) : (x.pause).stopped = x.stopped := rfl
@[simp] theorem Slot.pause_issued (x : Slot) : (x.pause).issued = x.issued := rfl
@[simp] theorem Slot.pause_idle (x : Slot) : (x.pause).idle = x.idle := rfl
@[simp] theorem Slot.pause_reissue (x : Slot) : (x.pause).reissue = x.reissue := rfl
@[simp] theorem Slot.pause_stamp (x : Slot) : (x.pause).stamp = x.stamp := rfl
@[simp] theorem Slot.pause_pend (x : Slot) : (x.pause).pend = x.pend := rfl

/-! `hang` -/

@[simp] theorem Slot.hang_owner (x : Slot) (h : Hold) : (x.hang h).owner = x.owner := by simp [Slot.hang]
@[simp] theorem Slot.hang_kept (x : Slot) (h : Hold) : (x.hang h).kept = x.kept := by simp [Slot.hang]
@[simp] theorem Slot.hang_bind (x : Slot) (h : Hold) : (x.hang h).bind = x.bind := by simp [Slot.hang]
@[simp] theorem Slot.hang_pc (x : Slot) (h : Hold) : (x.hang h).pc = x.pc := by simp [Slot.hang]
@[simp] theorem Slot.hang_g (x : Slot) (h : Hold) : (x.hang h).g = x.g := by simp [Slot.hang]
@[simp] theorem Slot.hang_csr (x : Slot) (h : Hold) : (x.hang h).csr = x.csr := by simp [Slot.hang]
@[simp] theorem Slot.hang_bb (x : Slot) (h : Hold) : (x.hang h).bb = x.bb := by simp [Slot.hang]
@[simp] theorem Slot.hang_eng (x : Slot) (h : Hold) : (x.hang h).eng = x.eng := by simp [Slot.hang]
@[simp] theorem Slot.hang_tok (x : Slot) (h : Hold) : (x.hang h).tok = x.tok := by simp [Slot.hang]
@[simp] theorem Slot.hang_claim (x : Slot) (h : Hold) : (x.hang h).claim = x.claim := by simp [Slot.hang]
@[simp] theorem Slot.hang_vreg (x : Slot) (h : Hold) : (x.hang h).vreg = x.vreg := by simp [Slot.hang]
@[simp] theorem Slot.hang_wake (x : Slot) (h : Hold) : (x.hang h).wake = x.wake := by simp [Slot.hang]
@[simp] theorem Slot.hang_yielding (x : Slot) (h : Hold) : (x.hang h).yielding = x.yielding := by simp [Slot.hang]
@[simp] theorem Slot.hang_ended (x : Slot) (h : Hold) : (x.hang h).ended = x.ended := by simp [Slot.hang]
@[simp] theorem Slot.hang_stopped (x : Slot) (h : Hold) : (x.hang h).stopped = x.stopped := by simp [Slot.hang]
@[simp] theorem Slot.hang_lost (x : Slot) (h : Hold) : (x.hang h).lost = (if x.reissue then x.lost + 1 else x.lost) := by simp [Slot.hang]
@[simp] theorem Slot.hang_stamp (x : Slot) (h : Hold) : (x.hang h).stamp = x.stamp := by simp [Slot.hang]
@[simp] theorem Slot.hang_pend (x : Slot) (h : Hold) : (x.hang h).pend = x.pend := by simp [Slot.hang]

/-! `finish` -/

@[simp] theorem Slot.finish_owner (x : Slot) : (x.finish).owner = x.owner := rfl
@[simp] theorem Slot.finish_kept (x : Slot) : (x.finish).kept = x.kept := rfl
@[simp] theorem Slot.finish_bind (x : Slot) : (x.finish).bind = x.bind := rfl
@[simp] theorem Slot.finish_g (x : Slot) : (x.finish).g = x.g := rfl
@[simp] theorem Slot.finish_csr (x : Slot) : (x.finish).csr = x.csr := rfl
@[simp] theorem Slot.finish_bb (x : Slot) : (x.finish).bb = x.bb := rfl
@[simp] theorem Slot.finish_pix (x : Slot) : (x.finish).pix = x.pix := rfl
@[simp] theorem Slot.finish_pixAt (x : Slot) : (x.finish).pixAt = x.pixAt := rfl
@[simp] theorem Slot.finish_eng (x : Slot) : (x.finish).eng = x.eng := rfl
@[simp] theorem Slot.finish_tok (x : Slot) : (x.finish).tok = x.tok := rfl
@[simp] theorem Slot.finish_claim (x : Slot) : (x.finish).claim = x.claim := rfl
@[simp] theorem Slot.finish_vreg (x : Slot) : (x.finish).vreg = x.vreg := rfl
@[simp] theorem Slot.finish_wake (x : Slot) : (x.finish).wake = x.wake := rfl
@[simp] theorem Slot.finish_yielding (x : Slot) : (x.finish).yielding = x.yielding := rfl
@[simp] theorem Slot.finish_ended (x : Slot) : (x.finish).ended = x.ended := rfl
@[simp] theorem Slot.finish_stopped (x : Slot) : (x.finish).stopped = x.stopped := rfl
@[simp] theorem Slot.finish_issued (x : Slot) : (x.finish).issued = x.issued := rfl
@[simp] theorem Slot.finish_lost (x : Slot) : (x.finish).lost = x.lost := rfl
@[simp] theorem Slot.finish_idle (x : Slot) : (x.finish).idle = x.idle := rfl
@[simp] theorem Slot.finish_stamp (x : Slot) : (x.finish).stamp = x.stamp := rfl
@[simp] theorem Slot.finish_pend (x : Slot) : (x.finish).pend = x.pend := rfl

/-! `again` -/

@[simp] theorem Slot.again_owner (x : Slot) : (x.again).owner = x.owner := rfl
@[simp] theorem Slot.again_kept (x : Slot) : (x.again).kept = x.kept := rfl
@[simp] theorem Slot.again_bind (x : Slot) : (x.again).bind = x.bind := rfl
@[simp] theorem Slot.again_pc (x : Slot) : (x.again).pc = x.pc := rfl
@[simp] theorem Slot.again_g (x : Slot) : (x.again).g = x.g := rfl
@[simp] theorem Slot.again_csr (x : Slot) : (x.again).csr = x.csr := rfl
@[simp] theorem Slot.again_bb (x : Slot) : (x.again).bb = x.bb := rfl
@[simp] theorem Slot.again_pix (x : Slot) : (x.again).pix = x.pix := rfl
@[simp] theorem Slot.again_pixAt (x : Slot) : (x.again).pixAt = x.pixAt := rfl
@[simp] theorem Slot.again_eng (x : Slot) : (x.again).eng = x.eng := rfl
@[simp] theorem Slot.again_tok (x : Slot) : (x.again).tok = x.tok := rfl
@[simp] theorem Slot.again_claim (x : Slot) : (x.again).claim = x.claim := rfl
@[simp] theorem Slot.again_vreg (x : Slot) : (x.again).vreg = x.vreg := rfl
@[simp] theorem Slot.again_wake (x : Slot) : (x.again).wake = x.wake := rfl
@[simp] theorem Slot.again_yielding (x : Slot) : (x.again).yielding = x.yielding := rfl
@[simp] theorem Slot.again_ended (x : Slot) : (x.again).ended = x.ended := rfl
@[simp] theorem Slot.again_stopped (x : Slot) : (x.again).stopped = x.stopped := rfl
@[simp] theorem Slot.again_issued (x : Slot) : (x.again).issued = x.issued := rfl
@[simp] theorem Slot.again_lost (x : Slot) : (x.again).lost = x.lost := rfl
@[simp] theorem Slot.again_idle (x : Slot) : (x.again).idle = x.idle := rfl
@[simp] theorem Slot.again_stamp (x : Slot) : (x.again).stamp = x.stamp := rfl
@[simp] theorem Slot.again_pend (x : Slot) : (x.again).pend = x.pend := rfl

/-! `withTrap` -/

@[simp] theorem Slot.withTrap_owner (x : Slot) (c : Nat) (y : Bool) (p v : Word) : (x.withTrap c y p v).owner = x.owner := by simp only [Slot.withTrap]
@[simp] theorem Slot.withTrap_kept (x : Slot) (c : Nat) (y : Bool) (p v : Word) : (x.withTrap c y p v).kept = x.kept := by simp only [Slot.withTrap]
@[simp] theorem Slot.withTrap_bind (x : Slot) (c : Nat) (y : Bool) (p v : Word) : (x.withTrap c y p v).bind = x.bind := by simp only [Slot.withTrap]
@[simp] theorem Slot.withTrap_pc (x : Slot) (c : Nat) (y : Bool) (p v : Word) : (x.withTrap c y p v).pc = x.pc := by simp only [Slot.withTrap]
@[simp] theorem Slot.withTrap_g (x : Slot) (c : Nat) (y : Bool) (p v : Word) : (x.withTrap c y p v).g = x.g := by simp only [Slot.withTrap]
@[simp] theorem Slot.withTrap_bb (x : Slot) (c : Nat) (y : Bool) (p v : Word) : (x.withTrap c y p v).bb = x.bb := by simp only [Slot.withTrap]
@[simp] theorem Slot.withTrap_pix (x : Slot) (c : Nat) (y : Bool) (p v : Word) : (x.withTrap c y p v).pix = x.pix := by simp only [Slot.withTrap]
@[simp] theorem Slot.withTrap_pixAt (x : Slot) (c : Nat) (y : Bool) (p v : Word) : (x.withTrap c y p v).pixAt = x.pixAt := by simp only [Slot.withTrap]
@[simp] theorem Slot.withTrap_eng (x : Slot) (c : Nat) (y : Bool) (p v : Word) : (x.withTrap c y p v).eng = x.eng := by simp only [Slot.withTrap]
@[simp] theorem Slot.withTrap_tok (x : Slot) (c : Nat) (y : Bool) (p v : Word) : (x.withTrap c y p v).tok = x.tok := by simp only [Slot.withTrap]
@[simp] theorem Slot.withTrap_claim (x : Slot) (c : Nat) (y : Bool) (p v : Word) : (x.withTrap c y p v).claim = x.claim := by simp only [Slot.withTrap]
@[simp] theorem Slot.withTrap_vreg (x : Slot) (c : Nat) (y : Bool) (p v : Word) : (x.withTrap c y p v).vreg = x.vreg := by simp only [Slot.withTrap]
@[simp] theorem Slot.withTrap_hold (x : Slot) (c : Nat) (y : Bool) (p v : Word) : (x.withTrap c y p v).hold = x.hold := by simp only [Slot.withTrap]
@[simp] theorem Slot.withTrap_wake (x : Slot) (c : Nat) (y : Bool) (p v : Word) : (x.withTrap c y p v).wake = x.wake := by simp only [Slot.withTrap]
@[simp] theorem Slot.withTrap_yielding (x : Slot) (c : Nat) (y : Bool) (p v : Word) : (x.withTrap c y p v).yielding = x.yielding := by simp only [Slot.withTrap]
@[simp] theorem Slot.withTrap_ended (x : Slot) (c : Nat) (y : Bool) (p v : Word) : (x.withTrap c y p v).ended = x.ended := by simp only [Slot.withTrap]
@[simp] theorem Slot.withTrap_stopped (x : Slot) (c : Nat) (y : Bool) (p v : Word) : (x.withTrap c y p v).stopped = x.stopped := by simp only [Slot.withTrap]
@[simp] theorem Slot.withTrap_issued (x : Slot) (c : Nat) (y : Bool) (p v : Word) : (x.withTrap c y p v).issued = x.issued := by simp only [Slot.withTrap]
@[simp] theorem Slot.withTrap_lost (x : Slot) (c : Nat) (y : Bool) (p v : Word) : (x.withTrap c y p v).lost = x.lost := by simp only [Slot.withTrap]
@[simp] theorem Slot.withTrap_idle (x : Slot) (c : Nat) (y : Bool) (p v : Word) : (x.withTrap c y p v).idle = x.idle := by simp only [Slot.withTrap]
@[simp] theorem Slot.withTrap_reissue (x : Slot) (c : Nat) (y : Bool) (p v : Word) : (x.withTrap c y p v).reissue = x.reissue := by simp only [Slot.withTrap]
@[simp] theorem Slot.withTrap_stamp (x : Slot) (c : Nat) (y : Bool) (p v : Word) : (x.withTrap c y p v).stamp = x.stamp := by simp only [Slot.withTrap]
@[simp] theorem Slot.withTrap_pend (x : Slot) (c : Nat) (y : Bool) (p v : Word) : (x.withTrap c y p v).pend = x.pend := by simp only [Slot.withTrap]

/-! `setIntrap` -/

@[simp] theorem Slot.setIntrap_owner (x : Slot) (b : Bool) : (x.setIntrap b).owner = x.owner := by simp only [Slot.setIntrap]
@[simp] theorem Slot.setIntrap_kept (x : Slot) (b : Bool) : (x.setIntrap b).kept = x.kept := by simp only [Slot.setIntrap]
@[simp] theorem Slot.setIntrap_bind (x : Slot) (b : Bool) : (x.setIntrap b).bind = x.bind := by simp only [Slot.setIntrap]
@[simp] theorem Slot.setIntrap_pc (x : Slot) (b : Bool) : (x.setIntrap b).pc = x.pc := by simp only [Slot.setIntrap]
@[simp] theorem Slot.setIntrap_g (x : Slot) (b : Bool) : (x.setIntrap b).g = x.g := by simp only [Slot.setIntrap]
@[simp] theorem Slot.setIntrap_bb (x : Slot) (b : Bool) : (x.setIntrap b).bb = x.bb := by simp only [Slot.setIntrap]
@[simp] theorem Slot.setIntrap_pix (x : Slot) (b : Bool) : (x.setIntrap b).pix = x.pix := by simp only [Slot.setIntrap]
@[simp] theorem Slot.setIntrap_pixAt (x : Slot) (b : Bool) : (x.setIntrap b).pixAt = x.pixAt := by simp only [Slot.setIntrap]
@[simp] theorem Slot.setIntrap_eng (x : Slot) (b : Bool) : (x.setIntrap b).eng = x.eng := by simp only [Slot.setIntrap]
@[simp] theorem Slot.setIntrap_tok (x : Slot) (b : Bool) : (x.setIntrap b).tok = x.tok := by simp only [Slot.setIntrap]
@[simp] theorem Slot.setIntrap_claim (x : Slot) (b : Bool) : (x.setIntrap b).claim = x.claim := by simp only [Slot.setIntrap]
@[simp] theorem Slot.setIntrap_vreg (x : Slot) (b : Bool) : (x.setIntrap b).vreg = x.vreg := by simp only [Slot.setIntrap]
@[simp] theorem Slot.setIntrap_hold (x : Slot) (b : Bool) : (x.setIntrap b).hold = x.hold := by simp only [Slot.setIntrap]
@[simp] theorem Slot.setIntrap_wake (x : Slot) (b : Bool) : (x.setIntrap b).wake = x.wake := by simp only [Slot.setIntrap]
@[simp] theorem Slot.setIntrap_yielding (x : Slot) (b : Bool) : (x.setIntrap b).yielding = x.yielding := by simp only [Slot.setIntrap]
@[simp] theorem Slot.setIntrap_ended (x : Slot) (b : Bool) : (x.setIntrap b).ended = x.ended := by simp only [Slot.setIntrap]
@[simp] theorem Slot.setIntrap_stopped (x : Slot) (b : Bool) : (x.setIntrap b).stopped = x.stopped := by simp only [Slot.setIntrap]
@[simp] theorem Slot.setIntrap_issued (x : Slot) (b : Bool) : (x.setIntrap b).issued = x.issued := by simp only [Slot.setIntrap]
@[simp] theorem Slot.setIntrap_lost (x : Slot) (b : Bool) : (x.setIntrap b).lost = x.lost := by simp only [Slot.setIntrap]
@[simp] theorem Slot.setIntrap_idle (x : Slot) (b : Bool) : (x.setIntrap b).idle = x.idle := by simp only [Slot.setIntrap]
@[simp] theorem Slot.setIntrap_reissue (x : Slot) (b : Bool) : (x.setIntrap b).reissue = x.reissue := by simp only [Slot.setIntrap]
@[simp] theorem Slot.setIntrap_stamp (x : Slot) (b : Bool) : (x.setIntrap b).stamp = x.stamp := by simp only [Slot.setIntrap]
@[simp] theorem Slot.setIntrap_pend (x : Slot) (b : Bool) : (x.setIntrap b).pend = x.pend := by simp only [Slot.setIntrap]

/-! `post` -/

@[simp] theorem Slot.post_owner (x : Slot) (c : Nat) (v : Word) : (x.post c v).owner = x.owner := by simp only [Slot.post]
@[simp] theorem Slot.post_kept (x : Slot) (c : Nat) (v : Word) : (x.post c v).kept = x.kept := by simp only [Slot.post]
@[simp] theorem Slot.post_bind (x : Slot) (c : Nat) (v : Word) : (x.post c v).bind = x.bind := by simp only [Slot.post]
@[simp] theorem Slot.post_pc (x : Slot) (c : Nat) (v : Word) : (x.post c v).pc = x.pc := by simp only [Slot.post]
@[simp] theorem Slot.post_g (x : Slot) (c : Nat) (v : Word) : (x.post c v).g = x.g := by simp only [Slot.post]
@[simp] theorem Slot.post_csr (x : Slot) (c : Nat) (v : Word) : (x.post c v).csr = x.csr := by simp only [Slot.post]
@[simp] theorem Slot.post_bb (x : Slot) (c : Nat) (v : Word) : (x.post c v).bb = x.bb := by simp only [Slot.post]
@[simp] theorem Slot.post_pix (x : Slot) (c : Nat) (v : Word) : (x.post c v).pix = x.pix := by simp only [Slot.post]
@[simp] theorem Slot.post_pixAt (x : Slot) (c : Nat) (v : Word) : (x.post c v).pixAt = x.pixAt := by simp only [Slot.post]
@[simp] theorem Slot.post_eng (x : Slot) (c : Nat) (v : Word) : (x.post c v).eng = x.eng := by simp only [Slot.post]
@[simp] theorem Slot.post_tok (x : Slot) (c : Nat) (v : Word) : (x.post c v).tok = x.tok := by simp only [Slot.post]
@[simp] theorem Slot.post_claim (x : Slot) (c : Nat) (v : Word) : (x.post c v).claim = x.claim := by simp only [Slot.post]
@[simp] theorem Slot.post_vreg (x : Slot) (c : Nat) (v : Word) : (x.post c v).vreg = x.vreg := by simp only [Slot.post]
@[simp] theorem Slot.post_hold (x : Slot) (c : Nat) (v : Word) : (x.post c v).hold = x.hold := by simp only [Slot.post]
@[simp] theorem Slot.post_wake (x : Slot) (c : Nat) (v : Word) : (x.post c v).wake = x.wake := by simp only [Slot.post]
@[simp] theorem Slot.post_yielding (x : Slot) (c : Nat) (v : Word) : (x.post c v).yielding = x.yielding := by simp only [Slot.post]
@[simp] theorem Slot.post_ended (x : Slot) (c : Nat) (v : Word) : (x.post c v).ended = x.ended := by simp only [Slot.post]
@[simp] theorem Slot.post_stopped (x : Slot) (c : Nat) (v : Word) : (x.post c v).stopped = x.stopped := by simp only [Slot.post]
@[simp] theorem Slot.post_issued (x : Slot) (c : Nat) (v : Word) : (x.post c v).issued = x.issued := by simp only [Slot.post]
@[simp] theorem Slot.post_lost (x : Slot) (c : Nat) (v : Word) : (x.post c v).lost = x.lost := by simp only [Slot.post]
@[simp] theorem Slot.post_idle (x : Slot) (c : Nat) (v : Word) : (x.post c v).idle = x.idle := by simp only [Slot.post]
@[simp] theorem Slot.post_reissue (x : Slot) (c : Nat) (v : Word) : (x.post c v).reissue = x.reissue := by simp only [Slot.post]

@[simp] theorem Slot.retire_pc (x : Slot) : x.retire.pc = x.pc + 4 := rfl
@[simp] theorem Slot.finish_pc (x : Slot) : x.finish.pc = x.pc + 4 := rfl
@[simp] theorem Slot.finish_hold (x : Slot) : x.finish.hold = none := rfl
@[simp] theorem Slot.hang_hold (x : Slot) (h : Hold) : (x.hang h).hold = some h := rfl
@[simp] theorem Slot.bubble_lost (x : Slot) : x.bubble.lost = x.lost + 1 := rfl

/-! Registers -/

@[simp] theorem Slot.reg_zero (x : Slot) : x.reg 0 = 0 := rfl
@[simp] theorem Slot.ready_zero (x : Slot) : x.ready 0 = true := rfl
@[simp] theorem Slot.setReg_zero (x : Slot) (v : Word) : x.setReg 0 v = x := rfl
@[simp] theorem Slot.reg_noteIssue (x : Slot) (r : Fin 32) : (x.noteIssue).reg r = x.reg r := by simp [Slot.reg]
@[simp] theorem Slot.ready_noteIssue (x : Slot) (r : Fin 32) : (x.noteIssue).ready r = x.ready r := by simp [Slot.ready]
@[simp] theorem Slot.pending_noteIssue (x : Slot) (r : Fin 32) : (x.noteIssue).pending r = x.pending r := by simp [Slot.pending]
@[simp] theorem Slot.reg_retire (x : Slot) (r : Fin 32) : (x.retire).reg r = x.reg r := by simp [Slot.reg]
@[simp] theorem Slot.ready_retire (x : Slot) (r : Fin 32) : (x.retire).ready r = x.ready r := by simp [Slot.ready]
@[simp] theorem Slot.pending_retire (x : Slot) (r : Fin 32) : (x.retire).pending r = x.pending r := by simp [Slot.pending]
@[simp] theorem Slot.reg_bubble (x : Slot) (r : Fin 32) : (x.bubble).reg r = x.reg r := by simp [Slot.reg]
@[simp] theorem Slot.ready_bubble (x : Slot) (r : Fin 32) : (x.bubble).ready r = x.ready r := by simp [Slot.ready]
@[simp] theorem Slot.pending_bubble (x : Slot) (r : Fin 32) : (x.bubble).pending r = x.pending r := by simp [Slot.pending]
@[simp] theorem Slot.reg_pause (x : Slot) (r : Fin 32) : (x.pause).reg r = x.reg r := by simp [Slot.reg]
@[simp] theorem Slot.ready_pause (x : Slot) (r : Fin 32) : (x.pause).ready r = x.ready r := by simp [Slot.ready]
@[simp] theorem Slot.pending_pause (x : Slot) (r : Fin 32) : (x.pause).pending r = x.pending r := by simp [Slot.pending]
@[simp] theorem Slot.reg_hang (x : Slot) (h : Hold) (r : Fin 32) : (x.hang h).reg r = x.reg r := by simp [Slot.reg]
@[simp] theorem Slot.ready_hang (x : Slot) (h : Hold) (r : Fin 32) : (x.hang h).ready r = x.ready r := by simp [Slot.ready]
@[simp] theorem Slot.pending_hang (x : Slot) (h : Hold) (r : Fin 32) : (x.hang h).pending r = x.pending r := by simp [Slot.pending]
@[simp] theorem Slot.reg_finish (x : Slot) (r : Fin 32) : (x.finish).reg r = x.reg r := by simp [Slot.reg]
@[simp] theorem Slot.ready_finish (x : Slot) (r : Fin 32) : (x.finish).ready r = x.ready r := by simp [Slot.ready]
@[simp] theorem Slot.pending_finish (x : Slot) (r : Fin 32) : (x.finish).pending r = x.pending r := by simp [Slot.pending]
@[simp] theorem Slot.reg_again (x : Slot) (r : Fin 32) : (x.again).reg r = x.reg r := by simp [Slot.reg]
@[simp] theorem Slot.ready_again (x : Slot) (r : Fin 32) : (x.again).ready r = x.ready r := by simp [Slot.ready]
@[simp] theorem Slot.pending_again (x : Slot) (r : Fin 32) : (x.again).pending r = x.pending r := by simp [Slot.pending]
@[simp] theorem Slot.reg_withTrap (x : Slot) (c : Nat) (y : Bool) (p v : Word) (r : Fin 32) : (x.withTrap c y p v).reg r = x.reg r := by simp [Slot.reg]
@[simp] theorem Slot.ready_withTrap (x : Slot) (c : Nat) (y : Bool) (p v : Word) (r : Fin 32) : (x.withTrap c y p v).ready r = x.ready r := by simp [Slot.ready]
@[simp] theorem Slot.pending_withTrap (x : Slot) (c : Nat) (y : Bool) (p v : Word) (r : Fin 32) : (x.withTrap c y p v).pending r = x.pending r := by simp [Slot.pending]
@[simp] theorem Slot.reg_setIntrap (x : Slot) (b : Bool) (r : Fin 32) : (x.setIntrap b).reg r = x.reg r := by simp [Slot.reg]
@[simp] theorem Slot.ready_setIntrap (x : Slot) (b : Bool) (r : Fin 32) : (x.setIntrap b).ready r = x.ready r := by simp [Slot.ready]
@[simp] theorem Slot.pending_setIntrap (x : Slot) (b : Bool) (r : Fin 32) : (x.setIntrap b).pending r = x.pending r := by simp [Slot.pending]
@[simp] theorem Slot.reg_post (x : Slot) (c : Nat) (v : Word) (r : Fin 32) : (x.post c v).reg r = x.reg r := by simp [Slot.reg]
@[simp] theorem Slot.ready_post (x : Slot) (c : Nat) (v : Word) (r : Fin 32) : (x.post c v).ready r = x.ready r := by simp [Slot.ready]
@[simp] theorem Slot.pending_post (x : Slot) (c : Nat) (v : Word) (r : Fin 32) : (x.post c v).pending r = x.pending r := by simp [Slot.pending]

/-- A written register reads as the value; g0 reads zero. -/
theorem Slot.reg_setReg (x : Slot) (r q : Fin 32) (v : Word) :
    (x.setReg r v).reg q = if q = r ∧ r ≠ 0 then v else x.reg q := by
  by_cases hr : r = 0
  · simp [Slot.setReg, hr]
  · by_cases hq : q = r
    · subst hq; simp [Slot.setReg, Slot.reg, hr]
    · have hv : (r.val = q.val) = False := by simp; exact fun h => hq (Fin.ext h.symm)
      simp [Slot.setReg, Slot.reg, hr, hq, hv]

@[simp] theorem Slot.reg_setReg_self (x : Slot) (r : Fin 32) (v : Word) (h : r ≠ 0) : (x.setReg r v).reg r = v := by
  simp [Slot.reg_setReg, h]

theorem Slot.reg_setReg_ne (x : Slot) (r q : Fin 32) (v : Word) (h : q ≠ r) : (x.setReg r v).reg q = x.reg q := by
  simp [Slot.reg_setReg, h]

/-- A written register is ready. -/
theorem Slot.ready_setReg (x : Slot) (r q : Fin 32) (v : Word) :
    (x.setReg r v).ready q = (q == r || x.ready q) := by
  by_cases hr : r = 0
  · by_cases hq : q = r
    · subst hq; subst hr; simp [Slot.setReg]
    · have hb : (q == r) = false := by simp [hq]
      rw [hb]; simp [Slot.setReg, hr]
  · by_cases hq : q = r
    · subst hq; simp [Slot.setReg, Slot.ready, hr]
    · have hv : (r.val = q.val) = False := by simp; exact fun h => hq (Fin.ext h.symm)
      simp [Slot.setReg, Slot.ready, hr, hq, hv]

end Machine
end Sys2Proof
end

