-- ==== Sys2Proof/Laws/State.lean ====
section
/-!
SUPPORT. The fields of the state after each named update (Machine/Ops.lean): one lemma per field per update, so that no
later proof unfolds a record update.
-/
namespace Sys2Proof
namespace Machine

/-! `setSlot` changes `slots`. -/

@[simp] theorem State.setSlot_mem (s : State) (k : Nat) (x : Slot) : (s.setSlot k x).mem = s.mem := rfl
@[simp] theorem State.setSlot_full (s : State) (k : Nat) (x : Slot) : (s.setSlot k x).full = s.full := rfl
@[simp] theorem State.setSlot_bad (s : State) (k : Nat) (x : Slot) : (s.setSlot k x).bad = s.bad := rfl
@[simp] theorem State.setSlot_slots (s : State) (k : Nat) (x : Slot) : (s.setSlot k x).slots = FMap.set k x s.slots := rfl
@[simp] theorem State.setSlot_cores (s : State) (k : Nat) (x : Slot) : (s.setSlot k x).cores = s.cores := rfl
@[simp] theorem State.setSlot_clusters (s : State) (k : Nat) (x : Slot) : (s.setSlot k x).clusters = s.clusters := rfl
@[simp] theorem State.setSlot_dies (s : State) (k : Nat) (x : Slot) : (s.setSlot k x).dies = s.dies := rfl
@[simp] theorem State.setSlot_parts (s : State) (k : Nat) (x : Slot) : (s.setSlot k x).parts = s.parts := rfl
@[simp] theorem State.setSlot_jobs (s : State) (k : Nat) (x : Slot) : (s.setSlot k x).jobs = s.jobs := rfl
@[simp] theorem State.setSlot_tasks (s : State) (k : Nat) (x : Slot) : (s.setSlot k x).tasks = s.tasks := rfl
@[simp] theorem State.setSlot_domains (s : State) (k : Nat) (x : Slot) : (s.setSlot k x).domains = s.domains := rfl
@[simp] theorem State.setSlot_msgs (s : State) (k : Nat) (x : Slot) : (s.setSlot k x).msgs = s.msgs := rfl
@[simp] theorem State.setSlot_wbs (s : State) (k : Nat) (x : Slot) : (s.setSlot k x).wbs = s.wbs := rfl
@[simp] theorem State.setSlot_cmds (s : State) (k : Nat) (x : Slot) : (s.setSlot k x).cmds = s.cmds := rfl
@[simp] theorem State.setSlot_boxes (s : State) (k : Nat) (x : Slot) : (s.setSlot k x).boxes = s.boxes := rfl
@[simp] theorem State.setSlot_parity (s : State) (k : Nat) (x : Slot) : (s.setSlot k x).parity = s.parity := rfl
@[simp] theorem State.setSlot_joins (s : State) (k : Nat) (x : Slot) : (s.setSlot k x).joins = s.joins := rfl
@[simp] theorem State.setSlot_groups (s : State) (k : Nat) (x : Slot) : (s.setSlot k x).groups = s.groups := rfl
@[simp] theorem State.setSlot_fabric (s : State) (k : Nat) (x : Slot) : (s.setSlot k x).fabric = s.fabric := rfl
@[simp] theorem State.setSlot_pkg (s : State) (k : Nat) (x : Slot) : (s.setSlot k x).pkg = s.pkg := rfl
@[simp] theorem State.setSlot_agenda (s : State) (k : Nat) (x : Slot) : (s.setSlot k x).agenda = s.agenda := rfl
@[simp] theorem State.setSlot_timers (s : State) (k : Nat) (x : Slot) : (s.setSlot k x).timers = s.timers := rfl
@[simp] theorem State.setSlot_cur (s : State) (k : Nat) (x : Slot) : (s.setSlot k x).cur = s.cur := rfl
@[simp] theorem State.setSlot_cycle (s : State) (k : Nat) (x : Slot) : (s.setSlot k x).cycle = s.cycle := rfl
@[simp] theorem State.setSlot_bootCycle (s : State) (k : Nat) (x : Slot) : (s.setSlot k x).bootCycle = s.bootCycle := rfl
@[simp] theorem State.setSlot_now (s : State) (k : Nat) (x : Slot) : (s.setSlot k x).now = s.now := rfl
@[simp] theorem State.setSlot_freeCtr (s : State) (k : Nat) (x : Slot) : (s.setSlot k x).freeCtr = s.freeCtr := rfl
@[simp] theorem State.setSlot_nextId (s : State) (k : Nat) (x : Slot) : (s.setSlot k x).nextId = s.nextId := rfl

/-! `modSlot` changes `slots`. -/

@[simp] theorem State.modSlot_mem (s : State) (k : Nat) (f : Slot → Slot) : (s.modSlot k f).mem = s.mem := rfl
@[simp] theorem State.modSlot_full (s : State) (k : Nat) (f : Slot → Slot) : (s.modSlot k f).full = s.full := rfl
@[simp] theorem State.modSlot_bad (s : State) (k : Nat) (f : Slot → Slot) : (s.modSlot k f).bad = s.bad := rfl
@[simp] theorem State.modSlot_slots (s : State) (k : Nat) (f : Slot → Slot) : (s.modSlot k f).slots = FMap.set k (f (s.slotAt k)) s.slots := rfl
@[simp] theorem State.modSlot_cores (s : State) (k : Nat) (f : Slot → Slot) : (s.modSlot k f).cores = s.cores := rfl
@[simp] theorem State.modSlot_clusters (s : State) (k : Nat) (f : Slot → Slot) : (s.modSlot k f).clusters = s.clusters := rfl
@[simp] theorem State.modSlot_dies (s : State) (k : Nat) (f : Slot → Slot) : (s.modSlot k f).dies = s.dies := rfl
@[simp] theorem State.modSlot_parts (s : State) (k : Nat) (f : Slot → Slot) : (s.modSlot k f).parts = s.parts := rfl
@[simp] theorem State.modSlot_jobs (s : State) (k : Nat) (f : Slot → Slot) : (s.modSlot k f).jobs = s.jobs := rfl
@[simp] theorem State.modSlot_tasks (s : State) (k : Nat) (f : Slot → Slot) : (s.modSlot k f).tasks = s.tasks := rfl
@[simp] theorem State.modSlot_domains (s : State) (k : Nat) (f : Slot → Slot) : (s.modSlot k f).domains = s.domains := rfl
@[simp] theorem State.modSlot_msgs (s : State) (k : Nat) (f : Slot → Slot) : (s.modSlot k f).msgs = s.msgs := rfl
@[simp] theorem State.modSlot_wbs (s : State) (k : Nat) (f : Slot → Slot) : (s.modSlot k f).wbs = s.wbs := rfl
@[simp] theorem State.modSlot_cmds (s : State) (k : Nat) (f : Slot → Slot) : (s.modSlot k f).cmds = s.cmds := rfl
@[simp] theorem State.modSlot_boxes (s : State) (k : Nat) (f : Slot → Slot) : (s.modSlot k f).boxes = s.boxes := rfl
@[simp] theorem State.modSlot_parity (s : State) (k : Nat) (f : Slot → Slot) : (s.modSlot k f).parity = s.parity := rfl
@[simp] theorem State.modSlot_joins (s : State) (k : Nat) (f : Slot → Slot) : (s.modSlot k f).joins = s.joins := rfl
@[simp] theorem State.modSlot_groups (s : State) (k : Nat) (f : Slot → Slot) : (s.modSlot k f).groups = s.groups := rfl
@[simp] theorem State.modSlot_fabric (s : State) (k : Nat) (f : Slot → Slot) : (s.modSlot k f).fabric = s.fabric := rfl
@[simp] theorem State.modSlot_pkg (s : State) (k : Nat) (f : Slot → Slot) : (s.modSlot k f).pkg = s.pkg := rfl
@[simp] theorem State.modSlot_agenda (s : State) (k : Nat) (f : Slot → Slot) : (s.modSlot k f).agenda = s.agenda := rfl
@[simp] theorem State.modSlot_timers (s : State) (k : Nat) (f : Slot → Slot) : (s.modSlot k f).timers = s.timers := rfl
@[simp] theorem State.modSlot_cur (s : State) (k : Nat) (f : Slot → Slot) : (s.modSlot k f).cur = s.cur := rfl
@[simp] theorem State.modSlot_cycle (s : State) (k : Nat) (f : Slot → Slot) : (s.modSlot k f).cycle = s.cycle := rfl
@[simp] theorem State.modSlot_bootCycle (s : State) (k : Nat) (f : Slot → Slot) : (s.modSlot k f).bootCycle = s.bootCycle := rfl
@[simp] theorem State.modSlot_now (s : State) (k : Nat) (f : Slot → Slot) : (s.modSlot k f).now = s.now := rfl
@[simp] theorem State.modSlot_freeCtr (s : State) (k : Nat) (f : Slot → Slot) : (s.modSlot k f).freeCtr = s.freeCtr := rfl
@[simp] theorem State.modSlot_nextId (s : State) (k : Nat) (f : Slot → Slot) : (s.modSlot k f).nextId = s.nextId := rfl

/-! `modCur` changes `slots`. -/

@[simp] theorem State.modCur_mem (s : State) (f : Slot → Slot) : (s.modCur f).mem = s.mem := rfl
@[simp] theorem State.modCur_full (s : State) (f : Slot → Slot) : (s.modCur f).full = s.full := rfl
@[simp] theorem State.modCur_bad (s : State) (f : Slot → Slot) : (s.modCur f).bad = s.bad := rfl
@[simp] theorem State.modCur_slots (s : State) (f : Slot → Slot) : (s.modCur f).slots = FMap.set s.cur (f s.curSlot) s.slots := rfl
@[simp] theorem State.modCur_cores (s : State) (f : Slot → Slot) : (s.modCur f).cores = s.cores := rfl
@[simp] theorem State.modCur_clusters (s : State) (f : Slot → Slot) : (s.modCur f).clusters = s.clusters := rfl
@[simp] theorem State.modCur_dies (s : State) (f : Slot → Slot) : (s.modCur f).dies = s.dies := rfl
@[simp] theorem State.modCur_parts (s : State) (f : Slot → Slot) : (s.modCur f).parts = s.parts := rfl
@[simp] theorem State.modCur_jobs (s : State) (f : Slot → Slot) : (s.modCur f).jobs = s.jobs := rfl
@[simp] theorem State.modCur_tasks (s : State) (f : Slot → Slot) : (s.modCur f).tasks = s.tasks := rfl
@[simp] theorem State.modCur_domains (s : State) (f : Slot → Slot) : (s.modCur f).domains = s.domains := rfl
@[simp] theorem State.modCur_msgs (s : State) (f : Slot → Slot) : (s.modCur f).msgs = s.msgs := rfl
@[simp] theorem State.modCur_wbs (s : State) (f : Slot → Slot) : (s.modCur f).wbs = s.wbs := rfl
@[simp] theorem State.modCur_cmds (s : State) (f : Slot → Slot) : (s.modCur f).cmds = s.cmds := rfl
@[simp] theorem State.modCur_boxes (s : State) (f : Slot → Slot) : (s.modCur f).boxes = s.boxes := rfl
@[simp] theorem State.modCur_parity (s : State) (f : Slot → Slot) : (s.modCur f).parity = s.parity := rfl
@[simp] theorem State.modCur_joins (s : State) (f : Slot → Slot) : (s.modCur f).joins = s.joins := rfl
@[simp] theorem State.modCur_groups (s : State) (f : Slot → Slot) : (s.modCur f).groups = s.groups := rfl
@[simp] theorem State.modCur_fabric (s : State) (f : Slot → Slot) : (s.modCur f).fabric = s.fabric := rfl
@[simp] theorem State.modCur_pkg (s : State) (f : Slot → Slot) : (s.modCur f).pkg = s.pkg := rfl
@[simp] theorem State.modCur_agenda (s : State) (f : Slot → Slot) : (s.modCur f).agenda = s.agenda := rfl
@[simp] theorem State.modCur_timers (s : State) (f : Slot → Slot) : (s.modCur f).timers = s.timers := rfl
@[simp] theorem State.modCur_cur (s : State) (f : Slot → Slot) : (s.modCur f).cur = s.cur := rfl
@[simp] theorem State.modCur_cycle (s : State) (f : Slot → Slot) : (s.modCur f).cycle = s.cycle := rfl
@[simp] theorem State.modCur_bootCycle (s : State) (f : Slot → Slot) : (s.modCur f).bootCycle = s.bootCycle := rfl
@[simp] theorem State.modCur_now (s : State) (f : Slot → Slot) : (s.modCur f).now = s.now := rfl
@[simp] theorem State.modCur_freeCtr (s : State) (f : Slot → Slot) : (s.modCur f).freeCtr = s.freeCtr := rfl
@[simp] theorem State.modCur_nextId (s : State) (f : Slot → Slot) : (s.modCur f).nextId = s.nextId := rfl

/-! `setReg` changes `slots`. -/

@[simp] theorem State.setReg_mem (s : State) (r : Fin 32) (v : Word) : (s.setReg r v).mem = s.mem := rfl
@[simp] theorem State.setReg_full (s : State) (r : Fin 32) (v : Word) : (s.setReg r v).full = s.full := rfl
@[simp] theorem State.setReg_bad (s : State) (r : Fin 32) (v : Word) : (s.setReg r v).bad = s.bad := rfl
@[simp] theorem State.setReg_slots (s : State) (r : Fin 32) (v : Word) : (s.setReg r v).slots = FMap.set s.cur (s.curSlot.setReg r v) s.slots := rfl
@[simp] theorem State.setReg_cores (s : State) (r : Fin 32) (v : Word) : (s.setReg r v).cores = s.cores := rfl
@[simp] theorem State.setReg_clusters (s : State) (r : Fin 32) (v : Word) : (s.setReg r v).clusters = s.clusters := rfl
@[simp] theorem State.setReg_dies (s : State) (r : Fin 32) (v : Word) : (s.setReg r v).dies = s.dies := rfl
@[simp] theorem State.setReg_parts (s : State) (r : Fin 32) (v : Word) : (s.setReg r v).parts = s.parts := rfl
@[simp] theorem State.setReg_jobs (s : State) (r : Fin 32) (v : Word) : (s.setReg r v).jobs = s.jobs := rfl
@[simp] theorem State.setReg_tasks (s : State) (r : Fin 32) (v : Word) : (s.setReg r v).tasks = s.tasks := rfl
@[simp] theorem State.setReg_domains (s : State) (r : Fin 32) (v : Word) : (s.setReg r v).domains = s.domains := rfl
@[simp] theorem State.setReg_msgs (s : State) (r : Fin 32) (v : Word) : (s.setReg r v).msgs = s.msgs := rfl
@[simp] theorem State.setReg_wbs (s : State) (r : Fin 32) (v : Word) : (s.setReg r v).wbs = s.wbs := rfl
@[simp] theorem State.setReg_cmds (s : State) (r : Fin 32) (v : Word) : (s.setReg r v).cmds = s.cmds := rfl
@[simp] theorem State.setReg_boxes (s : State) (r : Fin 32) (v : Word) : (s.setReg r v).boxes = s.boxes := rfl
@[simp] theorem State.setReg_parity (s : State) (r : Fin 32) (v : Word) : (s.setReg r v).parity = s.parity := rfl
@[simp] theorem State.setReg_joins (s : State) (r : Fin 32) (v : Word) : (s.setReg r v).joins = s.joins := rfl
@[simp] theorem State.setReg_groups (s : State) (r : Fin 32) (v : Word) : (s.setReg r v).groups = s.groups := rfl
@[simp] theorem State.setReg_fabric (s : State) (r : Fin 32) (v : Word) : (s.setReg r v).fabric = s.fabric := rfl
@[simp] theorem State.setReg_pkg (s : State) (r : Fin 32) (v : Word) : (s.setReg r v).pkg = s.pkg := rfl
@[simp] theorem State.setReg_agenda (s : State) (r : Fin 32) (v : Word) : (s.setReg r v).agenda = s.agenda := rfl
@[simp] theorem State.setReg_timers (s : State) (r : Fin 32) (v : Word) : (s.setReg r v).timers = s.timers := rfl
@[simp] theorem State.setReg_cur (s : State) (r : Fin 32) (v : Word) : (s.setReg r v).cur = s.cur := rfl
@[simp] theorem State.setReg_cycle (s : State) (r : Fin 32) (v : Word) : (s.setReg r v).cycle = s.cycle := rfl
@[simp] theorem State.setReg_bootCycle (s : State) (r : Fin 32) (v : Word) : (s.setReg r v).bootCycle = s.bootCycle := rfl
@[simp] theorem State.setReg_now (s : State) (r : Fin 32) (v : Word) : (s.setReg r v).now = s.now := rfl
@[simp] theorem State.setReg_freeCtr (s : State) (r : Fin 32) (v : Word) : (s.setReg r v).freeCtr = s.freeCtr := rfl
@[simp] theorem State.setReg_nextId (s : State) (r : Fin 32) (v : Word) : (s.setReg r v).nextId = s.nextId := rfl

/-! `retire` changes `slots`. -/

@[simp] theorem State.retire_mem (s : State) : (s.retire).mem = s.mem := rfl
@[simp] theorem State.retire_full (s : State) : (s.retire).full = s.full := rfl
@[simp] theorem State.retire_bad (s : State) : (s.retire).bad = s.bad := rfl
@[simp] theorem State.retire_slots (s : State) : (s.retire).slots = FMap.set s.cur s.curSlot.retire s.slots := rfl
@[simp] theorem State.retire_cores (s : State) : (s.retire).cores = s.cores := rfl
@[simp] theorem State.retire_clusters (s : State) : (s.retire).clusters = s.clusters := rfl
@[simp] theorem State.retire_dies (s : State) : (s.retire).dies = s.dies := rfl
@[simp] theorem State.retire_parts (s : State) : (s.retire).parts = s.parts := rfl
@[simp] theorem State.retire_jobs (s : State) : (s.retire).jobs = s.jobs := rfl
@[simp] theorem State.retire_tasks (s : State) : (s.retire).tasks = s.tasks := rfl
@[simp] theorem State.retire_domains (s : State) : (s.retire).domains = s.domains := rfl
@[simp] theorem State.retire_msgs (s : State) : (s.retire).msgs = s.msgs := rfl
@[simp] theorem State.retire_wbs (s : State) : (s.retire).wbs = s.wbs := rfl
@[simp] theorem State.retire_cmds (s : State) : (s.retire).cmds = s.cmds := rfl
@[simp] theorem State.retire_boxes (s : State) : (s.retire).boxes = s.boxes := rfl
@[simp] theorem State.retire_parity (s : State) : (s.retire).parity = s.parity := rfl
@[simp] theorem State.retire_joins (s : State) : (s.retire).joins = s.joins := rfl
@[simp] theorem State.retire_groups (s : State) : (s.retire).groups = s.groups := rfl
@[simp] theorem State.retire_fabric (s : State) : (s.retire).fabric = s.fabric := rfl
@[simp] theorem State.retire_pkg (s : State) : (s.retire).pkg = s.pkg := rfl
@[simp] theorem State.retire_agenda (s : State) : (s.retire).agenda = s.agenda := rfl
@[simp] theorem State.retire_timers (s : State) : (s.retire).timers = s.timers := rfl
@[simp] theorem State.retire_cur (s : State) : (s.retire).cur = s.cur := rfl
@[simp] theorem State.retire_cycle (s : State) : (s.retire).cycle = s.cycle := rfl
@[simp] theorem State.retire_bootCycle (s : State) : (s.retire).bootCycle = s.bootCycle := rfl
@[simp] theorem State.retire_now (s : State) : (s.retire).now = s.now := rfl
@[simp] theorem State.retire_freeCtr (s : State) : (s.retire).freeCtr = s.freeCtr := rfl
@[simp] theorem State.retire_nextId (s : State) : (s.retire).nextId = s.nextId := rfl

/-! `bubble` changes `slots`. -/

@[simp] theorem State.bubble_mem (s : State) : (s.bubble).mem = s.mem := rfl
@[simp] theorem State.bubble_full (s : State) : (s.bubble).full = s.full := rfl
@[simp] theorem State.bubble_bad (s : State) : (s.bubble).bad = s.bad := rfl
@[simp] theorem State.bubble_slots (s : State) : (s.bubble).slots = FMap.set s.cur s.curSlot.bubble s.slots := rfl
@[simp] theorem State.bubble_cores (s : State) : (s.bubble).cores = s.cores := rfl
@[simp] theorem State.bubble_clusters (s : State) : (s.bubble).clusters = s.clusters := rfl
@[simp] theorem State.bubble_dies (s : State) : (s.bubble).dies = s.dies := rfl
@[simp] theorem State.bubble_parts (s : State) : (s.bubble).parts = s.parts := rfl
@[simp] theorem State.bubble_jobs (s : State) : (s.bubble).jobs = s.jobs := rfl
@[simp] theorem State.bubble_tasks (s : State) : (s.bubble).tasks = s.tasks := rfl
@[simp] theorem State.bubble_domains (s : State) : (s.bubble).domains = s.domains := rfl
@[simp] theorem State.bubble_msgs (s : State) : (s.bubble).msgs = s.msgs := rfl
@[simp] theorem State.bubble_wbs (s : State) : (s.bubble).wbs = s.wbs := rfl
@[simp] theorem State.bubble_cmds (s : State) : (s.bubble).cmds = s.cmds := rfl
@[simp] theorem State.bubble_boxes (s : State) : (s.bubble).boxes = s.boxes := rfl
@[simp] theorem State.bubble_parity (s : State) : (s.bubble).parity = s.parity := rfl
@[simp] theorem State.bubble_joins (s : State) : (s.bubble).joins = s.joins := rfl
@[simp] theorem State.bubble_groups (s : State) : (s.bubble).groups = s.groups := rfl
@[simp] theorem State.bubble_fabric (s : State) : (s.bubble).fabric = s.fabric := rfl
@[simp] theorem State.bubble_pkg (s : State) : (s.bubble).pkg = s.pkg := rfl
@[simp] theorem State.bubble_agenda (s : State) : (s.bubble).agenda = s.agenda := rfl
@[simp] theorem State.bubble_timers (s : State) : (s.bubble).timers = s.timers := rfl
@[simp] theorem State.bubble_cur (s : State) : (s.bubble).cur = s.cur := rfl
@[simp] theorem State.bubble_cycle (s : State) : (s.bubble).cycle = s.cycle := rfl
@[simp] theorem State.bubble_bootCycle (s : State) : (s.bubble).bootCycle = s.bootCycle := rfl
@[simp] theorem State.bubble_now (s : State) : (s.bubble).now = s.now := rfl
@[simp] theorem State.bubble_freeCtr (s : State) : (s.bubble).freeCtr = s.freeCtr := rfl
@[simp] theorem State.bubble_nextId (s : State) : (s.bubble).nextId = s.nextId := rfl

/-! `pause` changes `slots`. -/

@[simp] theorem State.pause_mem (s : State) : (s.pause).mem = s.mem := rfl
@[simp] theorem State.pause_full (s : State) : (s.pause).full = s.full := rfl
@[simp] theorem State.pause_bad (s : State) : (s.pause).bad = s.bad := rfl
@[simp] theorem State.pause_slots (s : State) : (s.pause).slots = FMap.set s.cur s.curSlot.pause s.slots := rfl
@[simp] theorem State.pause_cores (s : State) : (s.pause).cores = s.cores := rfl
@[simp] theorem State.pause_clusters (s : State) : (s.pause).clusters = s.clusters := rfl
@[simp] theorem State.pause_dies (s : State) : (s.pause).dies = s.dies := rfl
@[simp] theorem State.pause_parts (s : State) : (s.pause).parts = s.parts := rfl
@[simp] theorem State.pause_jobs (s : State) : (s.pause).jobs = s.jobs := rfl
@[simp] theorem State.pause_tasks (s : State) : (s.pause).tasks = s.tasks := rfl
@[simp] theorem State.pause_domains (s : State) : (s.pause).domains = s.domains := rfl
@[simp] theorem State.pause_msgs (s : State) : (s.pause).msgs = s.msgs := rfl
@[simp] theorem State.pause_wbs (s : State) : (s.pause).wbs = s.wbs := rfl
@[simp] theorem State.pause_cmds (s : State) : (s.pause).cmds = s.cmds := rfl
@[simp] theorem State.pause_boxes (s : State) : (s.pause).boxes = s.boxes := rfl
@[simp] theorem State.pause_parity (s : State) : (s.pause).parity = s.parity := rfl
@[simp] theorem State.pause_joins (s : State) : (s.pause).joins = s.joins := rfl
@[simp] theorem State.pause_groups (s : State) : (s.pause).groups = s.groups := rfl
@[simp] theorem State.pause_fabric (s : State) : (s.pause).fabric = s.fabric := rfl
@[simp] theorem State.pause_pkg (s : State) : (s.pause).pkg = s.pkg := rfl
@[simp] theorem State.pause_agenda (s : State) : (s.pause).agenda = s.agenda := rfl
@[simp] theorem State.pause_timers (s : State) : (s.pause).timers = s.timers := rfl
@[simp] theorem State.pause_cur (s : State) : (s.pause).cur = s.cur := rfl
@[simp] theorem State.pause_cycle (s : State) : (s.pause).cycle = s.cycle := rfl
@[simp] theorem State.pause_bootCycle (s : State) : (s.pause).bootCycle = s.bootCycle := rfl
@[simp] theorem State.pause_now (s : State) : (s.pause).now = s.now := rfl
@[simp] theorem State.pause_freeCtr (s : State) : (s.pause).freeCtr = s.freeCtr := rfl
@[simp] theorem State.pause_nextId (s : State) : (s.pause).nextId = s.nextId := rfl

/-! `modCore` changes `cores`. -/

@[simp] theorem State.modCore_mem (s : State) (c : Nat) (f : Core → Core) : (s.modCore c f).mem = s.mem := rfl
@[simp] theorem State.modCore_full (s : State) (c : Nat) (f : Core → Core) : (s.modCore c f).full = s.full := rfl
@[simp] theorem State.modCore_bad (s : State) (c : Nat) (f : Core → Core) : (s.modCore c f).bad = s.bad := rfl
@[simp] theorem State.modCore_slots (s : State) (c : Nat) (f : Core → Core) : (s.modCore c f).slots = s.slots := rfl
@[simp] theorem State.modCore_cores (s : State) (c : Nat) (f : Core → Core) : (s.modCore c f).cores = FMap.set c (f (s.coreAt c)) s.cores := rfl
@[simp] theorem State.modCore_clusters (s : State) (c : Nat) (f : Core → Core) : (s.modCore c f).clusters = s.clusters := rfl
@[simp] theorem State.modCore_dies (s : State) (c : Nat) (f : Core → Core) : (s.modCore c f).dies = s.dies := rfl
@[simp] theorem State.modCore_parts (s : State) (c : Nat) (f : Core → Core) : (s.modCore c f).parts = s.parts := rfl
@[simp] theorem State.modCore_jobs (s : State) (c : Nat) (f : Core → Core) : (s.modCore c f).jobs = s.jobs := rfl
@[simp] theorem State.modCore_tasks (s : State) (c : Nat) (f : Core → Core) : (s.modCore c f).tasks = s.tasks := rfl
@[simp] theorem State.modCore_domains (s : State) (c : Nat) (f : Core → Core) : (s.modCore c f).domains = s.domains := rfl
@[simp] theorem State.modCore_msgs (s : State) (c : Nat) (f : Core → Core) : (s.modCore c f).msgs = s.msgs := rfl
@[simp] theorem State.modCore_wbs (s : State) (c : Nat) (f : Core → Core) : (s.modCore c f).wbs = s.wbs := rfl
@[simp] theorem State.modCore_cmds (s : State) (c : Nat) (f : Core → Core) : (s.modCore c f).cmds = s.cmds := rfl
@[simp] theorem State.modCore_boxes (s : State) (c : Nat) (f : Core → Core) : (s.modCore c f).boxes = s.boxes := rfl
@[simp] theorem State.modCore_parity (s : State) (c : Nat) (f : Core → Core) : (s.modCore c f).parity = s.parity := rfl
@[simp] theorem State.modCore_joins (s : State) (c : Nat) (f : Core → Core) : (s.modCore c f).joins = s.joins := rfl
@[simp] theorem State.modCore_groups (s : State) (c : Nat) (f : Core → Core) : (s.modCore c f).groups = s.groups := rfl
@[simp] theorem State.modCore_fabric (s : State) (c : Nat) (f : Core → Core) : (s.modCore c f).fabric = s.fabric := rfl
@[simp] theorem State.modCore_pkg (s : State) (c : Nat) (f : Core → Core) : (s.modCore c f).pkg = s.pkg := rfl
@[simp] theorem State.modCore_agenda (s : State) (c : Nat) (f : Core → Core) : (s.modCore c f).agenda = s.agenda := rfl
@[simp] theorem State.modCore_timers (s : State) (c : Nat) (f : Core → Core) : (s.modCore c f).timers = s.timers := rfl
@[simp] theorem State.modCore_cur (s : State) (c : Nat) (f : Core → Core) : (s.modCore c f).cur = s.cur := rfl
@[simp] theorem State.modCore_cycle (s : State) (c : Nat) (f : Core → Core) : (s.modCore c f).cycle = s.cycle := rfl
@[simp] theorem State.modCore_bootCycle (s : State) (c : Nat) (f : Core → Core) : (s.modCore c f).bootCycle = s.bootCycle := rfl
@[simp] theorem State.modCore_now (s : State) (c : Nat) (f : Core → Core) : (s.modCore c f).now = s.now := rfl
@[simp] theorem State.modCore_freeCtr (s : State) (c : Nat) (f : Core → Core) : (s.modCore c f).freeCtr = s.freeCtr := rfl
@[simp] theorem State.modCore_nextId (s : State) (c : Nat) (f : Core → Core) : (s.modCore c f).nextId = s.nextId := rfl

/-! `modCluster` changes `clusters`. -/

@[simp] theorem State.modCluster_mem (s : State) (q : Nat) (f : Cluster → Cluster) : (s.modCluster q f).mem = s.mem := rfl
@[simp] theorem State.modCluster_full (s : State) (q : Nat) (f : Cluster → Cluster) : (s.modCluster q f).full = s.full := rfl
@[simp] theorem State.modCluster_bad (s : State) (q : Nat) (f : Cluster → Cluster) : (s.modCluster q f).bad = s.bad := rfl
@[simp] theorem State.modCluster_slots (s : State) (q : Nat) (f : Cluster → Cluster) : (s.modCluster q f).slots = s.slots := rfl
@[simp] theorem State.modCluster_cores (s : State) (q : Nat) (f : Cluster → Cluster) : (s.modCluster q f).cores = s.cores := rfl
@[simp] theorem State.modCluster_clusters (s : State) (q : Nat) (f : Cluster → Cluster) : (s.modCluster q f).clusters = FMap.set q (f (s.clusterAt q)) s.clusters := rfl
@[simp] theorem State.modCluster_dies (s : State) (q : Nat) (f : Cluster → Cluster) : (s.modCluster q f).dies = s.dies := rfl
@[simp] theorem State.modCluster_parts (s : State) (q : Nat) (f : Cluster → Cluster) : (s.modCluster q f).parts = s.parts := rfl
@[simp] theorem State.modCluster_jobs (s : State) (q : Nat) (f : Cluster → Cluster) : (s.modCluster q f).jobs = s.jobs := rfl
@[simp] theorem State.modCluster_tasks (s : State) (q : Nat) (f : Cluster → Cluster) : (s.modCluster q f).tasks = s.tasks := rfl
@[simp] theorem State.modCluster_domains (s : State) (q : Nat) (f : Cluster → Cluster) : (s.modCluster q f).domains = s.domains := rfl
@[simp] theorem State.modCluster_msgs (s : State) (q : Nat) (f : Cluster → Cluster) : (s.modCluster q f).msgs = s.msgs := rfl
@[simp] theorem State.modCluster_wbs (s : State) (q : Nat) (f : Cluster → Cluster) : (s.modCluster q f).wbs = s.wbs := rfl
@[simp] theorem State.modCluster_cmds (s : State) (q : Nat) (f : Cluster → Cluster) : (s.modCluster q f).cmds = s.cmds := rfl
@[simp] theorem State.modCluster_boxes (s : State) (q : Nat) (f : Cluster → Cluster) : (s.modCluster q f).boxes = s.boxes := rfl
@[simp] theorem State.modCluster_parity (s : State) (q : Nat) (f : Cluster → Cluster) : (s.modCluster q f).parity = s.parity := rfl
@[simp] theorem State.modCluster_joins (s : State) (q : Nat) (f : Cluster → Cluster) : (s.modCluster q f).joins = s.joins := rfl
@[simp] theorem State.modCluster_groups (s : State) (q : Nat) (f : Cluster → Cluster) : (s.modCluster q f).groups = s.groups := rfl
@[simp] theorem State.modCluster_fabric (s : State) (q : Nat) (f : Cluster → Cluster) : (s.modCluster q f).fabric = s.fabric := rfl
@[simp] theorem State.modCluster_pkg (s : State) (q : Nat) (f : Cluster → Cluster) : (s.modCluster q f).pkg = s.pkg := rfl
@[simp] theorem State.modCluster_agenda (s : State) (q : Nat) (f : Cluster → Cluster) : (s.modCluster q f).agenda = s.agenda := rfl
@[simp] theorem State.modCluster_timers (s : State) (q : Nat) (f : Cluster → Cluster) : (s.modCluster q f).timers = s.timers := rfl
@[simp] theorem State.modCluster_cur (s : State) (q : Nat) (f : Cluster → Cluster) : (s.modCluster q f).cur = s.cur := rfl
@[simp] theorem State.modCluster_cycle (s : State) (q : Nat) (f : Cluster → Cluster) : (s.modCluster q f).cycle = s.cycle := rfl
@[simp] theorem State.modCluster_bootCycle (s : State) (q : Nat) (f : Cluster → Cluster) : (s.modCluster q f).bootCycle = s.bootCycle := rfl
@[simp] theorem State.modCluster_now (s : State) (q : Nat) (f : Cluster → Cluster) : (s.modCluster q f).now = s.now := rfl
@[simp] theorem State.modCluster_freeCtr (s : State) (q : Nat) (f : Cluster → Cluster) : (s.modCluster q f).freeCtr = s.freeCtr := rfl
@[simp] theorem State.modCluster_nextId (s : State) (q : Nat) (f : Cluster → Cluster) : (s.modCluster q f).nextId = s.nextId := rfl

/-! `modDie` changes `dies`. -/

@[simp] theorem State.modDie_mem (s : State) (d : Nat) (f : Die → Die) : (s.modDie d f).mem = s.mem := rfl
@[simp] theorem State.modDie_full (s : State) (d : Nat) (f : Die → Die) : (s.modDie d f).full = s.full := rfl
@[simp] theorem State.modDie_bad (s : State) (d : Nat) (f : Die → Die) : (s.modDie d f).bad = s.bad := rfl
@[simp] theorem State.modDie_slots (s : State) (d : Nat) (f : Die → Die) : (s.modDie d f).slots = s.slots := rfl
@[simp] theorem State.modDie_cores (s : State) (d : Nat) (f : Die → Die) : (s.modDie d f).cores = s.cores := rfl
@[simp] theorem State.modDie_clusters (s : State) (d : Nat) (f : Die → Die) : (s.modDie d f).clusters = s.clusters := rfl
@[simp] theorem State.modDie_dies (s : State) (d : Nat) (f : Die → Die) : (s.modDie d f).dies = FMap.set d (f (s.dieAt d)) s.dies := rfl
@[simp] theorem State.modDie_parts (s : State) (d : Nat) (f : Die → Die) : (s.modDie d f).parts = s.parts := rfl
@[simp] theorem State.modDie_jobs (s : State) (d : Nat) (f : Die → Die) : (s.modDie d f).jobs = s.jobs := rfl
@[simp] theorem State.modDie_tasks (s : State) (d : Nat) (f : Die → Die) : (s.modDie d f).tasks = s.tasks := rfl
@[simp] theorem State.modDie_domains (s : State) (d : Nat) (f : Die → Die) : (s.modDie d f).domains = s.domains := rfl
@[simp] theorem State.modDie_msgs (s : State) (d : Nat) (f : Die → Die) : (s.modDie d f).msgs = s.msgs := rfl
@[simp] theorem State.modDie_wbs (s : State) (d : Nat) (f : Die → Die) : (s.modDie d f).wbs = s.wbs := rfl
@[simp] theorem State.modDie_cmds (s : State) (d : Nat) (f : Die → Die) : (s.modDie d f).cmds = s.cmds := rfl
@[simp] theorem State.modDie_boxes (s : State) (d : Nat) (f : Die → Die) : (s.modDie d f).boxes = s.boxes := rfl
@[simp] theorem State.modDie_parity (s : State) (d : Nat) (f : Die → Die) : (s.modDie d f).parity = s.parity := rfl
@[simp] theorem State.modDie_joins (s : State) (d : Nat) (f : Die → Die) : (s.modDie d f).joins = s.joins := rfl
@[simp] theorem State.modDie_groups (s : State) (d : Nat) (f : Die → Die) : (s.modDie d f).groups = s.groups := rfl
@[simp] theorem State.modDie_fabric (s : State) (d : Nat) (f : Die → Die) : (s.modDie d f).fabric = s.fabric := rfl
@[simp] theorem State.modDie_pkg (s : State) (d : Nat) (f : Die → Die) : (s.modDie d f).pkg = s.pkg := rfl
@[simp] theorem State.modDie_agenda (s : State) (d : Nat) (f : Die → Die) : (s.modDie d f).agenda = s.agenda := rfl
@[simp] theorem State.modDie_timers (s : State) (d : Nat) (f : Die → Die) : (s.modDie d f).timers = s.timers := rfl
@[simp] theorem State.modDie_cur (s : State) (d : Nat) (f : Die → Die) : (s.modDie d f).cur = s.cur := rfl
@[simp] theorem State.modDie_cycle (s : State) (d : Nat) (f : Die → Die) : (s.modDie d f).cycle = s.cycle := rfl
@[simp] theorem State.modDie_bootCycle (s : State) (d : Nat) (f : Die → Die) : (s.modDie d f).bootCycle = s.bootCycle := rfl
@[simp] theorem State.modDie_now (s : State) (d : Nat) (f : Die → Die) : (s.modDie d f).now = s.now := rfl
@[simp] theorem State.modDie_freeCtr (s : State) (d : Nat) (f : Die → Die) : (s.modDie d f).freeCtr = s.freeCtr := rfl
@[simp] theorem State.modDie_nextId (s : State) (d : Nat) (f : Die → Die) : (s.modDie d f).nextId = s.nextId := rfl

/-! `modPart` changes `parts`. -/

@[simp] theorem State.modPart_mem (s : State) (p : Nat) (f : Part → Part) : (s.modPart p f).mem = s.mem := rfl
@[simp] theorem State.modPart_full (s : State) (p : Nat) (f : Part → Part) : (s.modPart p f).full = s.full := rfl
@[simp] theorem State.modPart_bad (s : State) (p : Nat) (f : Part → Part) : (s.modPart p f).bad = s.bad := rfl
@[simp] theorem State.modPart_slots (s : State) (p : Nat) (f : Part → Part) : (s.modPart p f).slots = s.slots := rfl
@[simp] theorem State.modPart_cores (s : State) (p : Nat) (f : Part → Part) : (s.modPart p f).cores = s.cores := rfl
@[simp] theorem State.modPart_clusters (s : State) (p : Nat) (f : Part → Part) : (s.modPart p f).clusters = s.clusters := rfl
@[simp] theorem State.modPart_dies (s : State) (p : Nat) (f : Part → Part) : (s.modPart p f).dies = s.dies := rfl
@[simp] theorem State.modPart_parts (s : State) (p : Nat) (f : Part → Part) : (s.modPart p f).parts = FMap.set p (f (s.partAt p)) s.parts := rfl
@[simp] theorem State.modPart_jobs (s : State) (p : Nat) (f : Part → Part) : (s.modPart p f).jobs = s.jobs := rfl
@[simp] theorem State.modPart_tasks (s : State) (p : Nat) (f : Part → Part) : (s.modPart p f).tasks = s.tasks := rfl
@[simp] theorem State.modPart_domains (s : State) (p : Nat) (f : Part → Part) : (s.modPart p f).domains = s.domains := rfl
@[simp] theorem State.modPart_msgs (s : State) (p : Nat) (f : Part → Part) : (s.modPart p f).msgs = s.msgs := rfl
@[simp] theorem State.modPart_wbs (s : State) (p : Nat) (f : Part → Part) : (s.modPart p f).wbs = s.wbs := rfl
@[simp] theorem State.modPart_cmds (s : State) (p : Nat) (f : Part → Part) : (s.modPart p f).cmds = s.cmds := rfl
@[simp] theorem State.modPart_boxes (s : State) (p : Nat) (f : Part → Part) : (s.modPart p f).boxes = s.boxes := rfl
@[simp] theorem State.modPart_parity (s : State) (p : Nat) (f : Part → Part) : (s.modPart p f).parity = s.parity := rfl
@[simp] theorem State.modPart_joins (s : State) (p : Nat) (f : Part → Part) : (s.modPart p f).joins = s.joins := rfl
@[simp] theorem State.modPart_groups (s : State) (p : Nat) (f : Part → Part) : (s.modPart p f).groups = s.groups := rfl
@[simp] theorem State.modPart_fabric (s : State) (p : Nat) (f : Part → Part) : (s.modPart p f).fabric = s.fabric := rfl
@[simp] theorem State.modPart_pkg (s : State) (p : Nat) (f : Part → Part) : (s.modPart p f).pkg = s.pkg := rfl
@[simp] theorem State.modPart_agenda (s : State) (p : Nat) (f : Part → Part) : (s.modPart p f).agenda = s.agenda := rfl
@[simp] theorem State.modPart_timers (s : State) (p : Nat) (f : Part → Part) : (s.modPart p f).timers = s.timers := rfl
@[simp] theorem State.modPart_cur (s : State) (p : Nat) (f : Part → Part) : (s.modPart p f).cur = s.cur := rfl
@[simp] theorem State.modPart_cycle (s : State) (p : Nat) (f : Part → Part) : (s.modPart p f).cycle = s.cycle := rfl
@[simp] theorem State.modPart_bootCycle (s : State) (p : Nat) (f : Part → Part) : (s.modPart p f).bootCycle = s.bootCycle := rfl
@[simp] theorem State.modPart_now (s : State) (p : Nat) (f : Part → Part) : (s.modPart p f).now = s.now := rfl
@[simp] theorem State.modPart_freeCtr (s : State) (p : Nat) (f : Part → Part) : (s.modPart p f).freeCtr = s.freeCtr := rfl
@[simp] theorem State.modPart_nextId (s : State) (p : Nat) (f : Part → Part) : (s.modPart p f).nextId = s.nextId := rfl

/-! `modPkg` changes `pkg`. -/

@[simp] theorem State.modPkg_mem (s : State) (f : Package → Package) : (s.modPkg f).mem = s.mem := rfl
@[simp] theorem State.modPkg_full (s : State) (f : Package → Package) : (s.modPkg f).full = s.full := rfl
@[simp] theorem State.modPkg_bad (s : State) (f : Package → Package) : (s.modPkg f).bad = s.bad := rfl
@[simp] theorem State.modPkg_slots (s : State) (f : Package → Package) : (s.modPkg f).slots = s.slots := rfl
@[simp] theorem State.modPkg_cores (s : State) (f : Package → Package) : (s.modPkg f).cores = s.cores := rfl
@[simp] theorem State.modPkg_clusters (s : State) (f : Package → Package) : (s.modPkg f).clusters = s.clusters := rfl
@[simp] theorem State.modPkg_dies (s : State) (f : Package → Package) : (s.modPkg f).dies = s.dies := rfl
@[simp] theorem State.modPkg_parts (s : State) (f : Package → Package) : (s.modPkg f).parts = s.parts := rfl
@[simp] theorem State.modPkg_jobs (s : State) (f : Package → Package) : (s.modPkg f).jobs = s.jobs := rfl
@[simp] theorem State.modPkg_tasks (s : State) (f : Package → Package) : (s.modPkg f).tasks = s.tasks := rfl
@[simp] theorem State.modPkg_domains (s : State) (f : Package → Package) : (s.modPkg f).domains = s.domains := rfl
@[simp] theorem State.modPkg_msgs (s : State) (f : Package → Package) : (s.modPkg f).msgs = s.msgs := rfl
@[simp] theorem State.modPkg_wbs (s : State) (f : Package → Package) : (s.modPkg f).wbs = s.wbs := rfl
@[simp] theorem State.modPkg_cmds (s : State) (f : Package → Package) : (s.modPkg f).cmds = s.cmds := rfl
@[simp] theorem State.modPkg_boxes (s : State) (f : Package → Package) : (s.modPkg f).boxes = s.boxes := rfl
@[simp] theorem State.modPkg_parity (s : State) (f : Package → Package) : (s.modPkg f).parity = s.parity := rfl
@[simp] theorem State.modPkg_joins (s : State) (f : Package → Package) : (s.modPkg f).joins = s.joins := rfl
@[simp] theorem State.modPkg_groups (s : State) (f : Package → Package) : (s.modPkg f).groups = s.groups := rfl
@[simp] theorem State.modPkg_fabric (s : State) (f : Package → Package) : (s.modPkg f).fabric = s.fabric := rfl
@[simp] theorem State.modPkg_pkg (s : State) (f : Package → Package) : (s.modPkg f).pkg = f s.pkg := rfl
@[simp] theorem State.modPkg_agenda (s : State) (f : Package → Package) : (s.modPkg f).agenda = s.agenda := rfl
@[simp] theorem State.modPkg_timers (s : State) (f : Package → Package) : (s.modPkg f).timers = s.timers := rfl
@[simp] theorem State.modPkg_cur (s : State) (f : Package → Package) : (s.modPkg f).cur = s.cur := rfl
@[simp] theorem State.modPkg_cycle (s : State) (f : Package → Package) : (s.modPkg f).cycle = s.cycle := rfl
@[simp] theorem State.modPkg_bootCycle (s : State) (f : Package → Package) : (s.modPkg f).bootCycle = s.bootCycle := rfl
@[simp] theorem State.modPkg_now (s : State) (f : Package → Package) : (s.modPkg f).now = s.now := rfl
@[simp] theorem State.modPkg_freeCtr (s : State) (f : Package → Package) : (s.modPkg f).freeCtr = s.freeCtr := rfl
@[simp] theorem State.modPkg_nextId (s : State) (f : Package → Package) : (s.modPkg f).nextId = s.nextId := rfl

/-! `modFabric` changes `fabric`. -/

@[simp] theorem State.modFabric_mem (s : State) (f : Fabric → Fabric) : (s.modFabric f).mem = s.mem := rfl
@[simp] theorem State.modFabric_full (s : State) (f : Fabric → Fabric) : (s.modFabric f).full = s.full := rfl
@[simp] theorem State.modFabric_bad (s : State) (f : Fabric → Fabric) : (s.modFabric f).bad = s.bad := rfl
@[simp] theorem State.modFabric_slots (s : State) (f : Fabric → Fabric) : (s.modFabric f).slots = s.slots := rfl
@[simp] theorem State.modFabric_cores (s : State) (f : Fabric → Fabric) : (s.modFabric f).cores = s.cores := rfl
@[simp] theorem State.modFabric_clusters (s : State) (f : Fabric → Fabric) : (s.modFabric f).clusters = s.clusters := rfl
@[simp] theorem State.modFabric_dies (s : State) (f : Fabric → Fabric) : (s.modFabric f).dies = s.dies := rfl
@[simp] theorem State.modFabric_parts (s : State) (f : Fabric → Fabric) : (s.modFabric f).parts = s.parts := rfl
@[simp] theorem State.modFabric_jobs (s : State) (f : Fabric → Fabric) : (s.modFabric f).jobs = s.jobs := rfl
@[simp] theorem State.modFabric_tasks (s : State) (f : Fabric → Fabric) : (s.modFabric f).tasks = s.tasks := rfl
@[simp] theorem State.modFabric_domains (s : State) (f : Fabric → Fabric) : (s.modFabric f).domains = s.domains := rfl
@[simp] theorem State.modFabric_msgs (s : State) (f : Fabric → Fabric) : (s.modFabric f).msgs = s.msgs := rfl
@[simp] theorem State.modFabric_wbs (s : State) (f : Fabric → Fabric) : (s.modFabric f).wbs = s.wbs := rfl
@[simp] theorem State.modFabric_cmds (s : State) (f : Fabric → Fabric) : (s.modFabric f).cmds = s.cmds := rfl
@[simp] theorem State.modFabric_boxes (s : State) (f : Fabric → Fabric) : (s.modFabric f).boxes = s.boxes := rfl
@[simp] theorem State.modFabric_parity (s : State) (f : Fabric → Fabric) : (s.modFabric f).parity = s.parity := rfl
@[simp] theorem State.modFabric_joins (s : State) (f : Fabric → Fabric) : (s.modFabric f).joins = s.joins := rfl
@[simp] theorem State.modFabric_groups (s : State) (f : Fabric → Fabric) : (s.modFabric f).groups = s.groups := rfl
@[simp] theorem State.modFabric_fabric (s : State) (f : Fabric → Fabric) : (s.modFabric f).fabric = f s.fabric := rfl
@[simp] theorem State.modFabric_pkg (s : State) (f : Fabric → Fabric) : (s.modFabric f).pkg = s.pkg := rfl
@[simp] theorem State.modFabric_agenda (s : State) (f : Fabric → Fabric) : (s.modFabric f).agenda = s.agenda := rfl
@[simp] theorem State.modFabric_timers (s : State) (f : Fabric → Fabric) : (s.modFabric f).timers = s.timers := rfl
@[simp] theorem State.modFabric_cur (s : State) (f : Fabric → Fabric) : (s.modFabric f).cur = s.cur := rfl
@[simp] theorem State.modFabric_cycle (s : State) (f : Fabric → Fabric) : (s.modFabric f).cycle = s.cycle := rfl
@[simp] theorem State.modFabric_bootCycle (s : State) (f : Fabric → Fabric) : (s.modFabric f).bootCycle = s.bootCycle := rfl
@[simp] theorem State.modFabric_now (s : State) (f : Fabric → Fabric) : (s.modFabric f).now = s.now := rfl
@[simp] theorem State.modFabric_freeCtr (s : State) (f : Fabric → Fabric) : (s.modFabric f).freeCtr = s.freeCtr := rfl
@[simp] theorem State.modFabric_nextId (s : State) (f : Fabric → Fabric) : (s.modFabric f).nextId = s.nextId := rfl

/-! `modTask` changes `tasks`. -/

@[simp] theorem State.modTask_mem (s : State) (id : Nat) (f : Task → Task) : (s.modTask id f).mem = s.mem := rfl
@[simp] theorem State.modTask_full (s : State) (id : Nat) (f : Task → Task) : (s.modTask id f).full = s.full := rfl
@[simp] theorem State.modTask_bad (s : State) (id : Nat) (f : Task → Task) : (s.modTask id f).bad = s.bad := rfl
@[simp] theorem State.modTask_slots (s : State) (id : Nat) (f : Task → Task) : (s.modTask id f).slots = s.slots := rfl
@[simp] theorem State.modTask_cores (s : State) (id : Nat) (f : Task → Task) : (s.modTask id f).cores = s.cores := rfl
@[simp] theorem State.modTask_clusters (s : State) (id : Nat) (f : Task → Task) : (s.modTask id f).clusters = s.clusters := rfl
@[simp] theorem State.modTask_dies (s : State) (id : Nat) (f : Task → Task) : (s.modTask id f).dies = s.dies := rfl
@[simp] theorem State.modTask_parts (s : State) (id : Nat) (f : Task → Task) : (s.modTask id f).parts = s.parts := rfl
@[simp] theorem State.modTask_jobs (s : State) (id : Nat) (f : Task → Task) : (s.modTask id f).jobs = s.jobs := rfl
@[simp] theorem State.modTask_tasks (s : State) (id : Nat) (f : Task → Task) : (s.modTask id f).tasks = s.tasks.map (fun t => if t.id = id then f t else t) := rfl
@[simp] theorem State.modTask_domains (s : State) (id : Nat) (f : Task → Task) : (s.modTask id f).domains = s.domains := rfl
@[simp] theorem State.modTask_msgs (s : State) (id : Nat) (f : Task → Task) : (s.modTask id f).msgs = s.msgs := rfl
@[simp] theorem State.modTask_wbs (s : State) (id : Nat) (f : Task → Task) : (s.modTask id f).wbs = s.wbs := rfl
@[simp] theorem State.modTask_cmds (s : State) (id : Nat) (f : Task → Task) : (s.modTask id f).cmds = s.cmds := rfl
@[simp] theorem State.modTask_boxes (s : State) (id : Nat) (f : Task → Task) : (s.modTask id f).boxes = s.boxes := rfl
@[simp] theorem State.modTask_parity (s : State) (id : Nat) (f : Task → Task) : (s.modTask id f).parity = s.parity := rfl
@[simp] theorem State.modTask_joins (s : State) (id : Nat) (f : Task → Task) : (s.modTask id f).joins = s.joins := rfl
@[simp] theorem State.modTask_groups (s : State) (id : Nat) (f : Task → Task) : (s.modTask id f).groups = s.groups := rfl
@[simp] theorem State.modTask_fabric (s : State) (id : Nat) (f : Task → Task) : (s.modTask id f).fabric = s.fabric := rfl
@[simp] theorem State.modTask_pkg (s : State) (id : Nat) (f : Task → Task) : (s.modTask id f).pkg = s.pkg := rfl
@[simp] theorem State.modTask_agenda (s : State) (id : Nat) (f : Task → Task) : (s.modTask id f).agenda = s.agenda := rfl
@[simp] theorem State.modTask_timers (s : State) (id : Nat) (f : Task → Task) : (s.modTask id f).timers = s.timers := rfl
@[simp] theorem State.modTask_cur (s : State) (id : Nat) (f : Task → Task) : (s.modTask id f).cur = s.cur := rfl
@[simp] theorem State.modTask_cycle (s : State) (id : Nat) (f : Task → Task) : (s.modTask id f).cycle = s.cycle := rfl
@[simp] theorem State.modTask_bootCycle (s : State) (id : Nat) (f : Task → Task) : (s.modTask id f).bootCycle = s.bootCycle := rfl
@[simp] theorem State.modTask_now (s : State) (id : Nat) (f : Task → Task) : (s.modTask id f).now = s.now := rfl
@[simp] theorem State.modTask_freeCtr (s : State) (id : Nat) (f : Task → Task) : (s.modTask id f).freeCtr = s.freeCtr := rfl
@[simp] theorem State.modTask_nextId (s : State) (id : Nat) (f : Task → Task) : (s.modTask id f).nextId = s.nextId := rfl

/-! `modMsg` changes `msgs`. -/

@[simp] theorem State.modMsg_mem (s : State) (id : Nat) (f : Msg → Msg) : (s.modMsg id f).mem = s.mem := rfl
@[simp] theorem State.modMsg_full (s : State) (id : Nat) (f : Msg → Msg) : (s.modMsg id f).full = s.full := rfl
@[simp] theorem State.modMsg_bad (s : State) (id : Nat) (f : Msg → Msg) : (s.modMsg id f).bad = s.bad := rfl
@[simp] theorem State.modMsg_slots (s : State) (id : Nat) (f : Msg → Msg) : (s.modMsg id f).slots = s.slots := rfl
@[simp] theorem State.modMsg_cores (s : State) (id : Nat) (f : Msg → Msg) : (s.modMsg id f).cores = s.cores := rfl
@[simp] theorem State.modMsg_clusters (s : State) (id : Nat) (f : Msg → Msg) : (s.modMsg id f).clusters = s.clusters := rfl
@[simp] theorem State.modMsg_dies (s : State) (id : Nat) (f : Msg → Msg) : (s.modMsg id f).dies = s.dies := rfl
@[simp] theorem State.modMsg_parts (s : State) (id : Nat) (f : Msg → Msg) : (s.modMsg id f).parts = s.parts := rfl
@[simp] theorem State.modMsg_jobs (s : State) (id : Nat) (f : Msg → Msg) : (s.modMsg id f).jobs = s.jobs := rfl
@[simp] theorem State.modMsg_tasks (s : State) (id : Nat) (f : Msg → Msg) : (s.modMsg id f).tasks = s.tasks := rfl
@[simp] theorem State.modMsg_domains (s : State) (id : Nat) (f : Msg → Msg) : (s.modMsg id f).domains = s.domains := rfl
@[simp] theorem State.modMsg_msgs (s : State) (id : Nat) (f : Msg → Msg) : (s.modMsg id f).msgs = s.msgs.map (fun m => if m.id = id then f m else m) := rfl
@[simp] theorem State.modMsg_wbs (s : State) (id : Nat) (f : Msg → Msg) : (s.modMsg id f).wbs = s.wbs := rfl
@[simp] theorem State.modMsg_cmds (s : State) (id : Nat) (f : Msg → Msg) : (s.modMsg id f).cmds = s.cmds := rfl
@[simp] theorem State.modMsg_boxes (s : State) (id : Nat) (f : Msg → Msg) : (s.modMsg id f).boxes = s.boxes := rfl
@[simp] theorem State.modMsg_parity (s : State) (id : Nat) (f : Msg → Msg) : (s.modMsg id f).parity = s.parity := rfl
@[simp] theorem State.modMsg_joins (s : State) (id : Nat) (f : Msg → Msg) : (s.modMsg id f).joins = s.joins := rfl
@[simp] theorem State.modMsg_groups (s : State) (id : Nat) (f : Msg → Msg) : (s.modMsg id f).groups = s.groups := rfl
@[simp] theorem State.modMsg_fabric (s : State) (id : Nat) (f : Msg → Msg) : (s.modMsg id f).fabric = s.fabric := rfl
@[simp] theorem State.modMsg_pkg (s : State) (id : Nat) (f : Msg → Msg) : (s.modMsg id f).pkg = s.pkg := rfl
@[simp] theorem State.modMsg_agenda (s : State) (id : Nat) (f : Msg → Msg) : (s.modMsg id f).agenda = s.agenda := rfl
@[simp] theorem State.modMsg_timers (s : State) (id : Nat) (f : Msg → Msg) : (s.modMsg id f).timers = s.timers := rfl
@[simp] theorem State.modMsg_cur (s : State) (id : Nat) (f : Msg → Msg) : (s.modMsg id f).cur = s.cur := rfl
@[simp] theorem State.modMsg_cycle (s : State) (id : Nat) (f : Msg → Msg) : (s.modMsg id f).cycle = s.cycle := rfl
@[simp] theorem State.modMsg_bootCycle (s : State) (id : Nat) (f : Msg → Msg) : (s.modMsg id f).bootCycle = s.bootCycle := rfl
@[simp] theorem State.modMsg_now (s : State) (id : Nat) (f : Msg → Msg) : (s.modMsg id f).now = s.now := rfl
@[simp] theorem State.modMsg_freeCtr (s : State) (id : Nat) (f : Msg → Msg) : (s.modMsg id f).freeCtr = s.freeCtr := rfl
@[simp] theorem State.modMsg_nextId (s : State) (id : Nat) (f : Msg → Msg) : (s.modMsg id f).nextId = s.nextId := rfl

/-! `dropMsg` changes `msgs`. -/

@[simp] theorem State.dropMsg_mem (s : State) (id : Nat) : (s.dropMsg id).mem = s.mem := rfl
@[simp] theorem State.dropMsg_full (s : State) (id : Nat) : (s.dropMsg id).full = s.full := rfl
@[simp] theorem State.dropMsg_bad (s : State) (id : Nat) : (s.dropMsg id).bad = s.bad := rfl
@[simp] theorem State.dropMsg_slots (s : State) (id : Nat) : (s.dropMsg id).slots = s.slots := rfl
@[simp] theorem State.dropMsg_cores (s : State) (id : Nat) : (s.dropMsg id).cores = s.cores := rfl
@[simp] theorem State.dropMsg_clusters (s : State) (id : Nat) : (s.dropMsg id).clusters = s.clusters := rfl
@[simp] theorem State.dropMsg_dies (s : State) (id : Nat) : (s.dropMsg id).dies = s.dies := rfl
@[simp] theorem State.dropMsg_parts (s : State) (id : Nat) : (s.dropMsg id).parts = s.parts := rfl
@[simp] theorem State.dropMsg_jobs (s : State) (id : Nat) : (s.dropMsg id).jobs = s.jobs := rfl
@[simp] theorem State.dropMsg_tasks (s : State) (id : Nat) : (s.dropMsg id).tasks = s.tasks := rfl
@[simp] theorem State.dropMsg_domains (s : State) (id : Nat) : (s.dropMsg id).domains = s.domains := rfl
@[simp] theorem State.dropMsg_msgs (s : State) (id : Nat) : (s.dropMsg id).msgs = s.msgs.filter (fun m => m.id != id) := rfl
@[simp] theorem State.dropMsg_wbs (s : State) (id : Nat) : (s.dropMsg id).wbs = s.wbs := rfl
@[simp] theorem State.dropMsg_cmds (s : State) (id : Nat) : (s.dropMsg id).cmds = s.cmds := rfl
@[simp] theorem State.dropMsg_boxes (s : State) (id : Nat) : (s.dropMsg id).boxes = s.boxes := rfl
@[simp] theorem State.dropMsg_parity (s : State) (id : Nat) : (s.dropMsg id).parity = s.parity := rfl
@[simp] theorem State.dropMsg_joins (s : State) (id : Nat) : (s.dropMsg id).joins = s.joins := rfl
@[simp] theorem State.dropMsg_groups (s : State) (id : Nat) : (s.dropMsg id).groups = s.groups := rfl
@[simp] theorem State.dropMsg_fabric (s : State) (id : Nat) : (s.dropMsg id).fabric = s.fabric := rfl
@[simp] theorem State.dropMsg_pkg (s : State) (id : Nat) : (s.dropMsg id).pkg = s.pkg := rfl
@[simp] theorem State.dropMsg_agenda (s : State) (id : Nat) : (s.dropMsg id).agenda = s.agenda := rfl
@[simp] theorem State.dropMsg_timers (s : State) (id : Nat) : (s.dropMsg id).timers = s.timers := rfl
@[simp] theorem State.dropMsg_cur (s : State) (id : Nat) : (s.dropMsg id).cur = s.cur := rfl
@[simp] theorem State.dropMsg_cycle (s : State) (id : Nat) : (s.dropMsg id).cycle = s.cycle := rfl
@[simp] theorem State.dropMsg_bootCycle (s : State) (id : Nat) : (s.dropMsg id).bootCycle = s.bootCycle := rfl
@[simp] theorem State.dropMsg_now (s : State) (id : Nat) : (s.dropMsg id).now = s.now := rfl
@[simp] theorem State.dropMsg_freeCtr (s : State) (id : Nat) : (s.dropMsg id).freeCtr = s.freeCtr := rfl
@[simp] theorem State.dropMsg_nextId (s : State) (id : Nat) : (s.dropMsg id).nextId = s.nextId := rfl

/-! `push` changes `agenda`. -/

@[simp] theorem State.push_mem (s : State) (e : Event) : (s.push e).mem = s.mem := rfl
@[simp] theorem State.push_full (s : State) (e : Event) : (s.push e).full = s.full := rfl
@[simp] theorem State.push_bad (s : State) (e : Event) : (s.push e).bad = s.bad := rfl
@[simp] theorem State.push_slots (s : State) (e : Event) : (s.push e).slots = s.slots := rfl
@[simp] theorem State.push_cores (s : State) (e : Event) : (s.push e).cores = s.cores := rfl
@[simp] theorem State.push_clusters (s : State) (e : Event) : (s.push e).clusters = s.clusters := rfl
@[simp] theorem State.push_dies (s : State) (e : Event) : (s.push e).dies = s.dies := rfl
@[simp] theorem State.push_parts (s : State) (e : Event) : (s.push e).parts = s.parts := rfl
@[simp] theorem State.push_jobs (s : State) (e : Event) : (s.push e).jobs = s.jobs := rfl
@[simp] theorem State.push_tasks (s : State) (e : Event) : (s.push e).tasks = s.tasks := rfl
@[simp] theorem State.push_domains (s : State) (e : Event) : (s.push e).domains = s.domains := rfl
@[simp] theorem State.push_msgs (s : State) (e : Event) : (s.push e).msgs = s.msgs := rfl
@[simp] theorem State.push_wbs (s : State) (e : Event) : (s.push e).wbs = s.wbs := rfl
@[simp] theorem State.push_cmds (s : State) (e : Event) : (s.push e).cmds = s.cmds := rfl
@[simp] theorem State.push_boxes (s : State) (e : Event) : (s.push e).boxes = s.boxes := rfl
@[simp] theorem State.push_parity (s : State) (e : Event) : (s.push e).parity = s.parity := rfl
@[simp] theorem State.push_joins (s : State) (e : Event) : (s.push e).joins = s.joins := rfl
@[simp] theorem State.push_groups (s : State) (e : Event) : (s.push e).groups = s.groups := rfl
@[simp] theorem State.push_fabric (s : State) (e : Event) : (s.push e).fabric = s.fabric := rfl
@[simp] theorem State.push_pkg (s : State) (e : Event) : (s.push e).pkg = s.pkg := rfl
@[simp] theorem State.push_agenda (s : State) (e : Event) : (s.push e).agenda = s.agenda ++ [e] := rfl
@[simp] theorem State.push_timers (s : State) (e : Event) : (s.push e).timers = s.timers := rfl
@[simp] theorem State.push_cur (s : State) (e : Event) : (s.push e).cur = s.cur := rfl
@[simp] theorem State.push_cycle (s : State) (e : Event) : (s.push e).cycle = s.cycle := rfl
@[simp] theorem State.push_bootCycle (s : State) (e : Event) : (s.push e).bootCycle = s.bootCycle := rfl
@[simp] theorem State.push_now (s : State) (e : Event) : (s.push e).now = s.now := rfl
@[simp] theorem State.push_freeCtr (s : State) (e : Event) : (s.push e).freeCtr = s.freeCtr := rfl
@[simp] theorem State.push_nextId (s : State) (e : Event) : (s.push e).nextId = s.nextId := rfl

/-! `pushAll` changes `agenda`. -/

@[simp] theorem State.pushAll_mem (s : State) (es : List Event) : (s.pushAll es).mem = s.mem := rfl
@[simp] theorem State.pushAll_full (s : State) (es : List Event) : (s.pushAll es).full = s.full := rfl
@[simp] theorem State.pushAll_bad (s : State) (es : List Event) : (s.pushAll es).bad = s.bad := rfl
@[simp] theorem State.pushAll_slots (s : State) (es : List Event) : (s.pushAll es).slots = s.slots := rfl
@[simp] theorem State.pushAll_cores (s : State) (es : List Event) : (s.pushAll es).cores = s.cores := rfl
@[simp] theorem State.pushAll_clusters (s : State) (es : List Event) : (s.pushAll es).clusters = s.clusters := rfl
@[simp] theorem State.pushAll_dies (s : State) (es : List Event) : (s.pushAll es).dies = s.dies := rfl
@[simp] theorem State.pushAll_parts (s : State) (es : List Event) : (s.pushAll es).parts = s.parts := rfl
@[simp] theorem State.pushAll_jobs (s : State) (es : List Event) : (s.pushAll es).jobs = s.jobs := rfl
@[simp] theorem State.pushAll_tasks (s : State) (es : List Event) : (s.pushAll es).tasks = s.tasks := rfl
@[simp] theorem State.pushAll_domains (s : State) (es : List Event) : (s.pushAll es).domains = s.domains := rfl
@[simp] theorem State.pushAll_msgs (s : State) (es : List Event) : (s.pushAll es).msgs = s.msgs := rfl
@[simp] theorem State.pushAll_wbs (s : State) (es : List Event) : (s.pushAll es).wbs = s.wbs := rfl
@[simp] theorem State.pushAll_cmds (s : State) (es : List Event) : (s.pushAll es).cmds = s.cmds := rfl
@[simp] theorem State.pushAll_boxes (s : State) (es : List Event) : (s.pushAll es).boxes = s.boxes := rfl
@[simp] theorem State.pushAll_parity (s : State) (es : List Event) : (s.pushAll es).parity = s.parity := rfl
@[simp] theorem State.pushAll_joins (s : State) (es : List Event) : (s.pushAll es).joins = s.joins := rfl
@[simp] theorem State.pushAll_groups (s : State) (es : List Event) : (s.pushAll es).groups = s.groups := rfl
@[simp] theorem State.pushAll_fabric (s : State) (es : List Event) : (s.pushAll es).fabric = s.fabric := rfl
@[simp] theorem State.pushAll_pkg (s : State) (es : List Event) : (s.pushAll es).pkg = s.pkg := rfl
@[simp] theorem State.pushAll_agenda (s : State) (es : List Event) : (s.pushAll es).agenda = s.agenda ++ es := rfl
@[simp] theorem State.pushAll_timers (s : State) (es : List Event) : (s.pushAll es).timers = s.timers := rfl
@[simp] theorem State.pushAll_cur (s : State) (es : List Event) : (s.pushAll es).cur = s.cur := rfl
@[simp] theorem State.pushAll_cycle (s : State) (es : List Event) : (s.pushAll es).cycle = s.cycle := rfl
@[simp] theorem State.pushAll_bootCycle (s : State) (es : List Event) : (s.pushAll es).bootCycle = s.bootCycle := rfl
@[simp] theorem State.pushAll_now (s : State) (es : List Event) : (s.pushAll es).now = s.now := rfl
@[simp] theorem State.pushAll_freeCtr (s : State) (es : List Event) : (s.pushAll es).freeCtr = s.freeCtr := rfl
@[simp] theorem State.pushAll_nextId (s : State) (es : List Event) : (s.pushAll es).nextId = s.nextId := rfl

/-! `after` changes `timers`. -/

@[simp] theorem State.after_mem (s : State) (ns : Nat) (e : Event) : (s.after ns e).mem = s.mem := rfl
@[simp] theorem State.after_full (s : State) (ns : Nat) (e : Event) : (s.after ns e).full = s.full := rfl
@[simp] theorem State.after_bad (s : State) (ns : Nat) (e : Event) : (s.after ns e).bad = s.bad := rfl
@[simp] theorem State.after_slots (s : State) (ns : Nat) (e : Event) : (s.after ns e).slots = s.slots := rfl
@[simp] theorem State.after_cores (s : State) (ns : Nat) (e : Event) : (s.after ns e).cores = s.cores := rfl
@[simp] theorem State.after_clusters (s : State) (ns : Nat) (e : Event) : (s.after ns e).clusters = s.clusters := rfl
@[simp] theorem State.after_dies (s : State) (ns : Nat) (e : Event) : (s.after ns e).dies = s.dies := rfl
@[simp] theorem State.after_parts (s : State) (ns : Nat) (e : Event) : (s.after ns e).parts = s.parts := rfl
@[simp] theorem State.after_jobs (s : State) (ns : Nat) (e : Event) : (s.after ns e).jobs = s.jobs := rfl
@[simp] theorem State.after_tasks (s : State) (ns : Nat) (e : Event) : (s.after ns e).tasks = s.tasks := rfl
@[simp] theorem State.after_domains (s : State) (ns : Nat) (e : Event) : (s.after ns e).domains = s.domains := rfl
@[simp] theorem State.after_msgs (s : State) (ns : Nat) (e : Event) : (s.after ns e).msgs = s.msgs := rfl
@[simp] theorem State.after_wbs (s : State) (ns : Nat) (e : Event) : (s.after ns e).wbs = s.wbs := rfl
@[simp] theorem State.after_cmds (s : State) (ns : Nat) (e : Event) : (s.after ns e).cmds = s.cmds := rfl
@[simp] theorem State.after_boxes (s : State) (ns : Nat) (e : Event) : (s.after ns e).boxes = s.boxes := rfl
@[simp] theorem State.after_parity (s : State) (ns : Nat) (e : Event) : (s.after ns e).parity = s.parity := rfl
@[simp] theorem State.after_joins (s : State) (ns : Nat) (e : Event) : (s.after ns e).joins = s.joins := rfl
@[simp] theorem State.after_groups (s : State) (ns : Nat) (e : Event) : (s.after ns e).groups = s.groups := rfl
@[simp] theorem State.after_fabric (s : State) (ns : Nat) (e : Event) : (s.after ns e).fabric = s.fabric := rfl
@[simp] theorem State.after_pkg (s : State) (ns : Nat) (e : Event) : (s.after ns e).pkg = s.pkg := rfl
@[simp] theorem State.after_agenda (s : State) (ns : Nat) (e : Event) : (s.after ns e).agenda = s.agenda := rfl
@[simp] theorem State.after_timers (s : State) (ns : Nat) (e : Event) : (s.after ns e).timers = s.timers ++ [⟨s.now + ns, e⟩] := rfl
@[simp] theorem State.after_cur (s : State) (ns : Nat) (e : Event) : (s.after ns e).cur = s.cur := rfl
@[simp] theorem State.after_cycle (s : State) (ns : Nat) (e : Event) : (s.after ns e).cycle = s.cycle := rfl
@[simp] theorem State.after_bootCycle (s : State) (ns : Nat) (e : Event) : (s.after ns e).bootCycle = s.bootCycle := rfl
@[simp] theorem State.after_now (s : State) (ns : Nat) (e : Event) : (s.after ns e).now = s.now := rfl
@[simp] theorem State.after_freeCtr (s : State) (ns : Nat) (e : Event) : (s.after ns e).freeCtr = s.freeCtr := rfl
@[simp] theorem State.after_nextId (s : State) (ns : Nat) (e : Event) : (s.after ns e).nextId = s.nextId := rfl

/-! `bumpId` changes `nextId`. -/

@[simp] theorem State.bumpId_mem (s : State) : (s.bumpId).mem = s.mem := rfl
@[simp] theorem State.bumpId_full (s : State) : (s.bumpId).full = s.full := rfl
@[simp] theorem State.bumpId_bad (s : State) : (s.bumpId).bad = s.bad := rfl
@[simp] theorem State.bumpId_slots (s : State) : (s.bumpId).slots = s.slots := rfl
@[simp] theorem State.bumpId_cores (s : State) : (s.bumpId).cores = s.cores := rfl
@[simp] theorem State.bumpId_clusters (s : State) : (s.bumpId).clusters = s.clusters := rfl
@[simp] theorem State.bumpId_dies (s : State) : (s.bumpId).dies = s.dies := rfl
@[simp] theorem State.bumpId_parts (s : State) : (s.bumpId).parts = s.parts := rfl
@[simp] theorem State.bumpId_jobs (s : State) : (s.bumpId).jobs = s.jobs := rfl
@[simp] theorem State.bumpId_tasks (s : State) : (s.bumpId).tasks = s.tasks := rfl
@[simp] theorem State.bumpId_domains (s : State) : (s.bumpId).domains = s.domains := rfl
@[simp] theorem State.bumpId_msgs (s : State) : (s.bumpId).msgs = s.msgs := rfl
@[simp] theorem State.bumpId_wbs (s : State) : (s.bumpId).wbs = s.wbs := rfl
@[simp] theorem State.bumpId_cmds (s : State) : (s.bumpId).cmds = s.cmds := rfl
@[simp] theorem State.bumpId_boxes (s : State) : (s.bumpId).boxes = s.boxes := rfl
@[simp] theorem State.bumpId_parity (s : State) : (s.bumpId).parity = s.parity := rfl
@[simp] theorem State.bumpId_joins (s : State) : (s.bumpId).joins = s.joins := rfl
@[simp] theorem State.bumpId_groups (s : State) : (s.bumpId).groups = s.groups := rfl
@[simp] theorem State.bumpId_fabric (s : State) : (s.bumpId).fabric = s.fabric := rfl
@[simp] theorem State.bumpId_pkg (s : State) : (s.bumpId).pkg = s.pkg := rfl
@[simp] theorem State.bumpId_agenda (s : State) : (s.bumpId).agenda = s.agenda := rfl
@[simp] theorem State.bumpId_timers (s : State) : (s.bumpId).timers = s.timers := rfl
@[simp] theorem State.bumpId_cur (s : State) : (s.bumpId).cur = s.cur := rfl
@[simp] theorem State.bumpId_cycle (s : State) : (s.bumpId).cycle = s.cycle := rfl
@[simp] theorem State.bumpId_bootCycle (s : State) : (s.bumpId).bootCycle = s.bootCycle := rfl
@[simp] theorem State.bumpId_now (s : State) : (s.bumpId).now = s.now := rfl
@[simp] theorem State.bumpId_freeCtr (s : State) : (s.bumpId).freeCtr = s.freeCtr := rfl
@[simp] theorem State.bumpId_nextId (s : State) : (s.bumpId).nextId = s.nextId + 1 := rfl

/-! `setFull` changes `full`. -/

@[simp] theorem State.setFull_mem (s : State) (a : Nat) (b : Bool) : (s.setFull a b).mem = s.mem := rfl
@[simp] theorem State.setFull_full (s : State) (a : Nat) (b : Bool) : (s.setFull a b).full = setWord s.full (a / 8) b := rfl
@[simp] theorem State.setFull_bad (s : State) (a : Nat) (b : Bool) : (s.setFull a b).bad = s.bad := rfl
@[simp] theorem State.setFull_slots (s : State) (a : Nat) (b : Bool) : (s.setFull a b).slots = s.slots := rfl
@[simp] theorem State.setFull_cores (s : State) (a : Nat) (b : Bool) : (s.setFull a b).cores = s.cores := rfl
@[simp] theorem State.setFull_clusters (s : State) (a : Nat) (b : Bool) : (s.setFull a b).clusters = s.clusters := rfl
@[simp] theorem State.setFull_dies (s : State) (a : Nat) (b : Bool) : (s.setFull a b).dies = s.dies := rfl
@[simp] theorem State.setFull_parts (s : State) (a : Nat) (b : Bool) : (s.setFull a b).parts = s.parts := rfl
@[simp] theorem State.setFull_jobs (s : State) (a : Nat) (b : Bool) : (s.setFull a b).jobs = s.jobs := rfl
@[simp] theorem State.setFull_tasks (s : State) (a : Nat) (b : Bool) : (s.setFull a b).tasks = s.tasks := rfl
@[simp] theorem State.setFull_domains (s : State) (a : Nat) (b : Bool) : (s.setFull a b).domains = s.domains := rfl
@[simp] theorem State.setFull_msgs (s : State) (a : Nat) (b : Bool) : (s.setFull a b).msgs = s.msgs := rfl
@[simp] theorem State.setFull_wbs (s : State) (a : Nat) (b : Bool) : (s.setFull a b).wbs = s.wbs := rfl
@[simp] theorem State.setFull_cmds (s : State) (a : Nat) (b : Bool) : (s.setFull a b).cmds = s.cmds := rfl
@[simp] theorem State.setFull_boxes (s : State) (a : Nat) (b : Bool) : (s.setFull a b).boxes = s.boxes := rfl
@[simp] theorem State.setFull_parity (s : State) (a : Nat) (b : Bool) : (s.setFull a b).parity = s.parity := rfl
@[simp] theorem State.setFull_joins (s : State) (a : Nat) (b : Bool) : (s.setFull a b).joins = s.joins := rfl
@[simp] theorem State.setFull_groups (s : State) (a : Nat) (b : Bool) : (s.setFull a b).groups = s.groups := rfl
@[simp] theorem State.setFull_fabric (s : State) (a : Nat) (b : Bool) : (s.setFull a b).fabric = s.fabric := rfl
@[simp] theorem State.setFull_pkg (s : State) (a : Nat) (b : Bool) : (s.setFull a b).pkg = s.pkg := rfl
@[simp] theorem State.setFull_agenda (s : State) (a : Nat) (b : Bool) : (s.setFull a b).agenda = s.agenda := rfl
@[simp] theorem State.setFull_timers (s : State) (a : Nat) (b : Bool) : (s.setFull a b).timers = s.timers := rfl
@[simp] theorem State.setFull_cur (s : State) (a : Nat) (b : Bool) : (s.setFull a b).cur = s.cur := rfl
@[simp] theorem State.setFull_cycle (s : State) (a : Nat) (b : Bool) : (s.setFull a b).cycle = s.cycle := rfl
@[simp] theorem State.setFull_bootCycle (s : State) (a : Nat) (b : Bool) : (s.setFull a b).bootCycle = s.bootCycle := rfl
@[simp] theorem State.setFull_now (s : State) (a : Nat) (b : Bool) : (s.setFull a b).now = s.now := rfl
@[simp] theorem State.setFull_freeCtr (s : State) (a : Nat) (b : Bool) : (s.setFull a b).freeCtr = s.freeCtr := rfl
@[simp] theorem State.setFull_nextId (s : State) (a : Nat) (b : Bool) : (s.setFull a b).nextId = s.nextId := rfl

/-! `charge` changes `tasks`. -/

@[simp] theorem State.charge_mem (s : State) (t c : Nat) : (s.charge t c).mem = s.mem := rfl
@[simp] theorem State.charge_full (s : State) (t c : Nat) : (s.charge t c).full = s.full := rfl
@[simp] theorem State.charge_bad (s : State) (t c : Nat) : (s.charge t c).bad = s.bad := rfl
@[simp] theorem State.charge_slots (s : State) (t c : Nat) : (s.charge t c).slots = s.slots := rfl
@[simp] theorem State.charge_cores (s : State) (t c : Nat) : (s.charge t c).cores = s.cores := rfl
@[simp] theorem State.charge_clusters (s : State) (t c : Nat) : (s.charge t c).clusters = s.clusters := rfl
@[simp] theorem State.charge_dies (s : State) (t c : Nat) : (s.charge t c).dies = s.dies := rfl
@[simp] theorem State.charge_parts (s : State) (t c : Nat) : (s.charge t c).parts = s.parts := rfl
@[simp] theorem State.charge_jobs (s : State) (t c : Nat) : (s.charge t c).jobs = s.jobs := rfl
@[simp] theorem State.charge_tasks (s : State) (t c : Nat) : (s.charge t c).tasks = s.tasks.map (fun x =>
    if x.id = t then (if x.discarded then x else { x with meter := (x.meter + c) % (100 * 2 ^ 64) }) else x) := rfl
@[simp] theorem State.charge_domains (s : State) (t c : Nat) : (s.charge t c).domains = s.domains := rfl
@[simp] theorem State.charge_msgs (s : State) (t c : Nat) : (s.charge t c).msgs = s.msgs := rfl
@[simp] theorem State.charge_wbs (s : State) (t c : Nat) : (s.charge t c).wbs = s.wbs := rfl
@[simp] theorem State.charge_cmds (s : State) (t c : Nat) : (s.charge t c).cmds = s.cmds := rfl
@[simp] theorem State.charge_boxes (s : State) (t c : Nat) : (s.charge t c).boxes = s.boxes := rfl
@[simp] theorem State.charge_parity (s : State) (t c : Nat) : (s.charge t c).parity = s.parity := rfl
@[simp] theorem State.charge_joins (s : State) (t c : Nat) : (s.charge t c).joins = s.joins := rfl
@[simp] theorem State.charge_groups (s : State) (t c : Nat) : (s.charge t c).groups = s.groups := rfl
@[simp] theorem State.charge_fabric (s : State) (t c : Nat) : (s.charge t c).fabric = s.fabric := rfl
@[simp] theorem State.charge_pkg (s : State) (t c : Nat) : (s.charge t c).pkg = s.pkg := rfl
@[simp] theorem State.charge_agenda (s : State) (t c : Nat) : (s.charge t c).agenda = s.agenda := rfl
@[simp] theorem State.charge_timers (s : State) (t c : Nat) : (s.charge t c).timers = s.timers := rfl
@[simp] theorem State.charge_cur (s : State) (t c : Nat) : (s.charge t c).cur = s.cur := rfl
@[simp] theorem State.charge_cycle (s : State) (t c : Nat) : (s.charge t c).cycle = s.cycle := rfl
@[simp] theorem State.charge_bootCycle (s : State) (t c : Nat) : (s.charge t c).bootCycle = s.bootCycle := rfl
@[simp] theorem State.charge_now (s : State) (t c : Nat) : (s.charge t c).now = s.now := rfl
@[simp] theorem State.charge_freeCtr (s : State) (t c : Nat) : (s.charge t c).freeCtr = s.freeCtr := rfl
@[simp] theorem State.charge_nextId (s : State) (t c : Nat) : (s.charge t c).nextId = s.nextId := rfl

end Machine
end Sys2Proof
end

