-- ==== Sys2Proof/Laws/Maps.lean ====
section
/-!
SUPPORT. Finite maps and what the named updates leave at every key: slots, cores, clusters, dies, partitions.
-/
namespace Sys2Proof
namespace Machine

/-! ## Finite maps -/

@[simp] theorem FMap.get_set_self {V : Type} (d : V) (a : Nat) (v : V) (m : FMap V) :
    FMap.get d (FMap.set a v m) a = v := by
  induction m with
  | nil => simp [FMap.set, FMap.get]
  | cons e m ih =>
    obtain ⟨k, w⟩ := e
    by_cases h1 : k < a
    · have : k ≠ a := by omega
      simp [FMap.set, FMap.get, h1, this, ih]
    · by_cases h2 : k = a <;> simp [FMap.set, FMap.get, h1, h2]

theorem FMap.get_set_ne {V : Type} (d : V) (a b : Nat) (v : V) (m : FMap V) (h : b ≠ a) :
    FMap.get d (FMap.set a v m) b = FMap.get d m b := by
  induction m with
  | nil => simp [FMap.set, FMap.get, h.symm]
  | cons e m ih =>
    obtain ⟨k, w⟩ := e
    by_cases h1 : k < a
    · simp [FMap.set, FMap.get, h1, ih]
    · by_cases h2 : k = a
      · subst h2; simp [FMap.set, FMap.get, h.symm]
      · simp [FMap.set, FMap.get, h1, h2, h.symm]

theorem FMap.get_set {V : Type} (d : V) (a b : Nat) (v : V) (m : FMap V) :
    FMap.get d (FMap.set a v m) b = if b = a then v else FMap.get d m b := by
  by_cases h : b = a
  · subst h; simp
  · simp [FMap.get_set_ne d a b v m h, h]

theorem FMap.find_set {V : Type} (a b : Nat) (v : V) (m : FMap V) :
    FMap.find (FMap.set a v m) b = if b = a then some v else FMap.find m b := by
  induction m with
  | nil =>
    by_cases h : b = a
    · simp [FMap.set, FMap.find, h]
    · have : a ≠ b := fun e => h e.symm
      simp [FMap.set, FMap.find, h, this]
  | cons e m ih =>
    obtain ⟨k, w⟩ := e
    by_cases h1 : k < a
    · by_cases hb : b = a
      · have : k ≠ a := by omega
        subst hb; simpa [FMap.set, FMap.find, h1, this] using ih
      · by_cases hk : k = b
        · subst hk; simp [FMap.set, FMap.find, h1, hb]
        · simp [FMap.set, FMap.find, h1, hk, hb, ih]
    · by_cases h2 : k = a
      · subst h2; by_cases hb : b = k <;> simp [FMap.set, FMap.find, hb, eq_comm]
      · by_cases hb : b = a
        · subst hb; simp [FMap.set, FMap.find, h1, h2]
        · have : a ≠ b := fun h => hb h.symm
          simp [FMap.set, FMap.find, h1, h2, hb, this]

/-! ## Slots -/

theorem State.slotAt_setSlot (s : State) (k j : Nat) (x : Slot) :
    (s.setSlot k x).slotAt j = if j = k then x else s.slotAt j := FMap.get_set Slot.wiped k j x s.slots

@[simp] theorem State.slotAt_setSlot_self (s : State) (k : Nat) (x : Slot) : (s.setSlot k x).slotAt k = x := by
  simp [State.slotAt_setSlot]

theorem State.slotAt_modSlot (s : State) (k j : Nat) (f : Slot → Slot) :
    (s.modSlot k f).slotAt j = if j = k then f (s.slotAt k) else s.slotAt j :=
  State.slotAt_setSlot s k j _

@[simp] theorem State.slotAt_modSlot_self (s : State) (k : Nat) (f : Slot → Slot) :
    (s.modSlot k f).slotAt k = f (s.slotAt k) := by simp [State.slotAt_modSlot]

theorem State.slotAt_modCur (s : State) (j : Nat) (f : Slot → Slot) :
    (s.modCur f).slotAt j = if j = s.cur then f s.curSlot else s.slotAt j :=
  State.slotAt_modSlot s s.cur j f

@[simp] theorem State.curSlot_modCur (s : State) (f : Slot → Slot) : (s.modCur f).curSlot = f s.curSlot := by
  show (s.modCur f).slotAt s.cur = _; simp [State.slotAt_modCur]

@[simp] theorem State.curSlot_setReg (s : State) (r : Fin 32) (v : Word) :
    (s.setReg r v).curSlot = s.curSlot.setReg r v := State.curSlot_modCur s _

@[simp] theorem State.curSlot_retire (s : State) : s.retire.curSlot = s.curSlot.retire := State.curSlot_modCur s _
@[simp] theorem State.curSlot_bubble (s : State) : s.bubble.curSlot = s.curSlot.bubble := State.curSlot_modCur s _
@[simp] theorem State.curSlot_pause (s : State) : s.pause.curSlot = s.curSlot.pause := State.curSlot_modCur s _

theorem State.slotAt_retire (s : State) (j : Nat) :
    s.retire.slotAt j = if j = s.cur then s.curSlot.retire else s.slotAt j := State.slotAt_modCur s j _
theorem State.slotAt_setReg (s : State) (j : Nat) (r : Fin 32) (v : Word) :
    (s.setReg r v).slotAt j = if j = s.cur then s.curSlot.setReg r v else s.slotAt j := State.slotAt_modCur s j _

/-- Two writes of the same slot leave the second. -/
theorem FMap.set_set {V : Type} (a : Nat) (v w : V) (m : FMap V) : FMap.set a w (FMap.set a v m) = FMap.set a w m := by
  induction m with
  | nil => simp [FMap.set]
  | cons e m ih =>
    obtain ⟨k, u⟩ := e
    by_cases h1 : k < a
    · simp [FMap.set, h1, ih]
    · by_cases h2 : k = a <;> simp [FMap.set, h1, h2]

@[simp] theorem State.modCur_modCur (s : State) (f g : Slot → Slot) :
    (s.modCur f).modCur g = s.modCur (fun x => g (f x)) := by
  show (s.modSlot s.cur f).setSlot s.cur (g ((s.modSlot s.cur f).slotAt s.cur)) = _
  simp [State.modSlot, State.setSlot, State.modCur, FMap.set_set, State.slotAt]

/-! Slots and cores under updates of other parts. -/

@[simp] theorem State.slotAt_modCore (s : State) (c k : Nat) (f : Core → Core) : (s.modCore c f).slotAt k = s.slotAt k := rfl
@[simp] theorem State.curSlot_modCore (s : State) (c : Nat) (f : Core → Core) : (s.modCore c f).curSlot = s.curSlot := rfl
@[simp] theorem State.slotAt_modCluster (s : State) (c k : Nat) (f : Cluster → Cluster) :
    (s.modCluster c f).slotAt k = s.slotAt k := rfl
@[simp] theorem State.slotAt_modDie (s : State) (c k : Nat) (f : Die → Die) : (s.modDie c f).slotAt k = s.slotAt k := rfl
@[simp] theorem State.slotAt_modPkg (s : State) (k : Nat) (f : Package → Package) : (s.modPkg f).slotAt k = s.slotAt k := rfl
@[simp] theorem State.slotAt_push (s : State) (k : Nat) (e : Event) : (s.push e).slotAt k = s.slotAt k := rfl
@[simp] theorem State.slotAt_charge (s : State) (t c k : Nat) : (s.charge t c).slotAt k = s.slotAt k := rfl

theorem State.coreAt_modCore (s : State) (c j : Nat) (f : Core → Core) :
    (s.modCore c f).coreAt j = if j = c then f (s.coreAt c) else s.coreAt j := FMap.get_set ({} : Core) c j _ s.cores
@[simp] theorem State.coreAt_modCore_self (s : State) (c : Nat) (f : Core → Core) :
    (s.modCore c f).coreAt c = f (s.coreAt c) := by simp [State.coreAt_modCore]
@[simp] theorem State.coreAt_modSlot (s : State) (k c : Nat) (f : Slot → Slot) : (s.modSlot k f).coreAt c = s.coreAt c := rfl
@[simp] theorem State.coreAt_modCur (s : State) (c : Nat) (f : Slot → Slot) : (s.modCur f).coreAt c = s.coreAt c := rfl
@[simp] theorem State.coreAt_setReg (s : State) (c : Nat) (r : Fin 32) (v : Word) :
    (s.setReg r v).coreAt c = s.coreAt c := rfl
@[simp] theorem State.coreAt_retire (s : State) (c : Nat) : s.retire.coreAt c = s.coreAt c := rfl

theorem State.clusterAt_modCluster (s : State) (q j : Nat) (f : Cluster → Cluster) :
    (s.modCluster q f).clusterAt j = if j = q then f (s.clusterAt q) else s.clusterAt j := FMap.get_set ({} : Cluster) q j _ s.clusters
@[simp] theorem State.clusterAt_modCluster_self (s : State) (q : Nat) (f : Cluster → Cluster) :
    (s.modCluster q f).clusterAt q = f (s.clusterAt q) := by simp [State.clusterAt_modCluster]
theorem State.dieAt_modDie (s : State) (d j : Nat) (f : Die → Die) :
    (s.modDie d f).dieAt j = if j = d then f (s.dieAt d) else s.dieAt j := FMap.get_set ({} : Die) d j _ s.dies
@[simp] theorem State.dieAt_modDie_self (s : State) (d : Nat) (f : Die → Die) :
    (s.modDie d f).dieAt d = f (s.dieAt d) := by simp [State.dieAt_modDie]
theorem State.partAt_modPart (s : State) (p j : Nat) (f : Part → Part) :
    (s.modPart p f).partAt j = if j = p then f (s.partAt p) else s.partAt j := FMap.get_set ({} : Part) p j _ s.parts
@[simp] theorem State.partAt_modPart_self (s : State) (p : Nat) (f : Part → Part) :
    (s.modPart p f).partAt p = f (s.partAt p) := by simp [State.partAt_modPart]

/-! Registers of the current slot. -/

theorem State.reg_setReg (s : State) (r q : Fin 32) (v : Word) :
    (s.setReg r v).reg q = if q = r ∧ r ≠ 0 then v else s.reg q := by
  show (s.setReg r v).curSlot.reg q = _; simp [Slot.reg_setReg, State.reg]

@[simp] theorem State.reg_retire (s : State) (q : Fin 32) : s.retire.reg q = s.reg q := by
  show s.retire.curSlot.reg q = _; simp [State.reg]

end Machine
end Sys2Proof
end

