-- ==== Sys2Proof/Laws/Memory.lean ====
section
/-!
SUPPORT. Memory: what is written reads back, every other byte stays, and every operation keeps the canonical form.
-/
namespace Sys2Proof
namespace Machine

/-- Every listed address is at least `a`. -/
def Memory.above (a : Nat) (m : Memory) : Prop := ∀ c ∈ m, a ≤ c.1

theorem Memory.wf_cons {a : Nat} {b : Byte} {m : Memory} :
    Memory.wf ((a, b) :: m) = true ↔ b ≠ Memory.unlisted ∧ Memory.wf m = true ∧ Memory.above (a + 1) m := by
  induction m generalizing a b with
  | nil => simp [Memory.wf, Memory.above]
  | cons e m ih =>
    obtain ⟨a', b'⟩ := e
    have h := @ih a' b'
    constructor
    · intro hw
      have h1 : (b ≠ Memory.unlisted ∧ Memory.wf ((a', b') :: m) = true) ∧ a < a' := by
        simpa [Memory.wf] using hw
      obtain ⟨⟨hb, hm⟩, ha⟩ := h1
      refine ⟨hb, hm, ?_⟩
      obtain ⟨_, _, hab⟩ := h.mp hm
      intro c hc
      rcases List.mem_cons.mp hc with rfl | hc
      · show a + 1 ≤ a'; omega
      · have := hab c hc; omega
    · rintro ⟨hb, hm, hab⟩
      have ha : a < a' := hab (a', b') (List.mem_cons_self ..)
      have : Memory.wf ((a, b) :: (a', b') :: m) =
          (b != Memory.unlisted && Memory.wf ((a', b') :: m) && decide (a < a')) := by
        simp [Memory.wf]
      rw [this]; simp [hb, hm, ha]

theorem Memory.find_above {a : Nat} {m : Memory} (h : Memory.above (a + 1) m) : FMap.find m a = none := by
  induction m with
  | nil => rfl
  | cons e m ih =>
    obtain ⟨k, v⟩ := e
    have hk : a + 1 ≤ k := h (k, v) (List.mem_cons_self ..)
    have : k ≠ a := by omega
    simp only [FMap.find, this, if_false]
    exact ih (fun c hc => h c (List.mem_cons_of_mem _ hc))

theorem Memory.above_write {k a : Nat} {b : Byte} {m : Memory} (h : Memory.above k m) (ha : k ≤ a) :
    Memory.above k (Memory.write a b m) := by
  induction m with
  | nil =>
    simp only [Memory.write]; split
    · exact h
    · intro c hc; simp at hc; subst hc; exact ha
  | cons e m ih =>
    obtain ⟨c, x⟩ := e
    have hm : Memory.above k m := fun d hd => h d (List.mem_cons_of_mem _ hd)
    have hc : k ≤ c := h (c, x) (List.mem_cons_self ..)
    simp only [Memory.write]
    split
    · intro d hd
      rcases List.mem_cons.mp hd with rfl | hd
      · exact hc
      · exact ih hm d hd
    · intro d hd
      split at hd <;> (try rcases List.mem_cons.mp hd with rfl | hd) <;> (try exact ha) <;> split at hd
      all_goals first | exact hm d hd | exact h d hd

/-- A write keeps the canonical form. -/
theorem Memory.wf_write (a : Nat) (b : Byte) (m : Memory) (h : Memory.wf m = true) :
    Memory.wf (Memory.write a b m) = true := by
  induction m with
  | nil => simp only [Memory.write]; split <;> simp_all [Memory.wf]
  | cons e m ih =>
    obtain ⟨c, x⟩ := e
    obtain ⟨hx, hm, hab⟩ := Memory.wf_cons.mp h
    simp only [Memory.write]
    split
    · exact Memory.wf_cons.mpr ⟨hx, ih hm, Memory.above_write hab (by omega)⟩
    · by_cases hc : c = a
      · subst hc
        simp only [if_true]
        split
        · exact hm
        · exact Memory.wf_cons.mpr ⟨by assumption, hm, hab⟩
      · simp only [hc, if_false]
        split
        · exact h
        · refine Memory.wf_cons.mpr ⟨by assumption, h, ?_⟩
          intro d hd
          rcases List.mem_cons.mp hd with rfl | hd
          · show a + 1 ≤ c; omega
          · have := hab d hd; omega

theorem Memory.wf_filter (p : Host.Cell → Bool) (m : Memory) (h : Memory.wf m = true) :
    Memory.wf (m.filter p) = true := by
  induction m with
  | nil => rfl
  | cons e m ih =>
    obtain ⟨c, x⟩ := e
    obtain ⟨hx, hm, hab⟩ := Memory.wf_cons.mp h
    rw [List.filter_cons]
    split
    · exact Memory.wf_cons.mpr ⟨hx, ih hm, fun d hd => hab d (List.mem_filter.mp hd).1⟩
    · exact ih hm

theorem Memory.wf_wipe (a n : Nat) (m : Memory) (h : Memory.wf m = true) : Memory.wf (Memory.wipe m a n) = true :=
  Memory.wf_filter _ m h

theorem Memory.wf_writeList (bs : List Byte) (m : Memory) (a : Nat) (h : Memory.wf m = true) :
    Memory.wf (Memory.writeList m a bs) = true := by
  induction bs generalizing m a with
  | nil => exact h
  | cons b bs ih => exact ih _ _ (Memory.wf_write a b m h)

theorem Memory.wf_foldl_write (g : Nat × Byte → Nat) (l : List (Nat × Byte)) (m : Memory) (h : Memory.wf m = true) :
    Memory.wf (l.foldl (fun m e => Memory.write (g e) e.2 m) m) = true := by
  induction l generalizing m with
  | nil => exact h
  | cons e l ih => exact ih _ (Memory.wf_write _ _ m h)

/-- Read after write: the written byte reads back, every other byte as before. -/
theorem Memory.read_write (a c : Nat) (b : Byte) (m : Memory) (h : Memory.wf m = true) :
    Memory.read (Memory.write a b m) c = if c = a then b else Memory.read m c := by
  induction m with
  | nil =>
    simp only [Memory.write]
    by_cases hb : b = Memory.unlisted
    · subst hb; by_cases hc : c = a <;> simp [Memory.read, FMap.find, hc]
    · by_cases hc : c = a
      · simp [Memory.read, FMap.find, hb, hc]
      · have : a ≠ c := fun e => hc e.symm
        simp [Memory.read, FMap.find, hb, hc, this]
  | cons e m ih =>
    obtain ⟨k, x⟩ := e
    obtain ⟨hx, hm, hab⟩ := Memory.wf_cons.mp h
    have ih := ih hm
    simp only [Memory.write]
    by_cases h1 : k < a
    · by_cases hk : k = c
      · subst hk
        have : k ≠ a := by omega
        simp [h1, Memory.read, FMap.find, this]
      · simpa [h1, Memory.read, FMap.find, hk] using ih
    · by_cases h2 : k = a
      · subst h2
        by_cases hc : c = k
        · subst hc
          by_cases hb : b = Memory.unlisted
          · simp [hb, Memory.read, Memory.find_above hab]
          · simp [hb, Memory.read, FMap.find]
        · have : k ≠ c := fun e => hc e.symm
          by_cases hb : b = Memory.unlisted <;> simp [hb, Memory.read, FMap.find, this, hc]
      · have hka : a + 1 ≤ k := by omega
        have habv : Memory.above (a + 1) ((k, x) :: m) := by
          intro d hd
          rcases List.mem_cons.mp hd with rfl | hd
          · exact hka
          · have := hab d hd; omega
        by_cases hc : c = a
        · subst hc
          by_cases hb : b = Memory.unlisted
          · simp [h1, h2, hb, Memory.read, Memory.find_above habv]
          · simp [h1, h2, hb, Memory.read, FMap.find]
        · have : a ≠ c := fun e => hc e.symm
          by_cases hb : b = Memory.unlisted <;> simp [h1, h2, hb, Memory.read, FMap.find, this, hc]

/-- After a write of several bytes: those read back, every byte outside as before. -/
theorem Memory.read_writeList (bs : List Byte) (m : Memory) (a c : Nat) (h : Memory.wf m = true) :
    Memory.read (Memory.writeList m a bs) c =
      if a ≤ c ∧ c < a + bs.length then bs.getD (c - a) 0 else Memory.read m c := by
  induction bs generalizing m a with
  | nil =>
    rw [if_neg (by simp only [List.length_nil]; omega)]
    rfl
  | cons b bs ih =>
    rw [Memory.writeList, ih _ _ (Memory.wf_write a b m h), Memory.read_write a c b m h]
    by_cases h1 : c = a
    · subst h1
      have h2 : ¬ (c + 1 ≤ c ∧ c < c + 1 + bs.length) := by omega
      rw [if_neg h2]
      simp
    · by_cases h2 : a + 1 ≤ c ∧ c < a + 1 + bs.length
      · have h3 : a ≤ c ∧ c < a + (bs.length + 1) := by omega
        have h4 : c - a = (c - (a + 1)) + 1 := by omega
        simp [h2, h3, h4]
      · have h3 : ¬ (a ≤ c ∧ c < a + (bs.length + 1)) := by omega
        simp only [List.length_cons, h2, h3, h1, if_false]

theorem State.store_mem (s : State) (a : Nat) (bs : List Byte) :
    (s.store a bs).mem = Memory.writeList s.mem a bs ∨ ∃ s' : State, s'.mem = Memory.writeList s.mem a bs ∧
      s.store a bs = s'.fireTriggers := by
  unfold State.store
  dsimp only
  split
  · exact .inr ⟨_, rfl, rfl⟩
  · exact .inl rfl

@[simp] theorem State.enqueue_mem (s : State) (id : Nat) : (s.enqueue id).mem = s.mem := rfl

theorem State.enqueueAll_mem (l : List (Nat × Nat × Nat)) (s : State) :
    (l.foldl (fun s t => State.enqueue s t.2.2) s).mem = s.mem := by
  induction l generalizing s with
  | nil => rfl
  | cons t l ih => exact (ih _).trans rfl

@[simp] theorem State.fireTriggers_mem (s : State) : s.fireTriggers.mem = s.mem := State.enqueueAll_mem _ _

/-- A store changes memory by its bytes alone. -/
@[simp] theorem State.store_mem_eq (s : State) (a : Nat) (bs : List Byte) :
    (s.store a bs).mem = Memory.writeList s.mem a bs := by
  rcases s.store_mem a bs with h | ⟨s', h, e⟩
  · exact h
  · rw [e, State.fireTriggers_mem, h]

end Machine
end Sys2Proof
end

