-- ==== Sys2Proof/Laws/Cipher.lean ====
section
/-!
SUPPORT. Encrypted memory (04_placement R88): a key's two directions undo each other, and what reading memory under a key
changes of the state.
-/
namespace Sys2Proof
namespace Machine

theorem swapOf_swapOf (x : Nat) (p : Nat × Nat) : swapOf (swapOf x p) p = x := by
  unfold swapOf
  split <;> rename_i h
  · by_cases h2 : p.2 % 2 ^ 128 = p.1 % 2 ^ 128 <;> simp [h, h2]
  · split <;> simp_all

/-- What a key makes of a block, it undoes. -/
theorem decipher_encipher (c b x : Nat) : decipher c b (encipher c b x) = x := by
  unfold decipher encipher
  split
  · rfl
  · rw [← List.foldl_reverse]
    generalize Config.xtsSwaps (c - 1) b = l
    induction l generalizing x with
    | nil => rfl
    | cons p l ih => simp [List.foldl_append, ih, swapOf_swapOf]

theorem FMap.get_drop {V : Type} (d : V) (a b : Nat) (m : FMap V) :
    FMap.get d (FMap.drop a m) b = if b = a then d else FMap.get d m b := by
  induction m with
  | nil => simp [FMap.drop, FMap.get]
  | cons e m ih =>
    obtain ⟨k, w⟩ := e
    simp only [FMap.drop, List.filter_cons] at ih ⊢
    by_cases h : k = a
    · simp only [h, bne_self_eq_false, Bool.false_eq_true, if_false, FMap.get]
      rw [ih]; by_cases h2 : b = a <;> simp [h2]
      exact fun h3 => absurd h3.symm h2
    · simp only [bne_iff_ne, ne_eq, h, not_false_eq_true, if_true, FMap.get, ih]
      by_cases h2 : k = b <;> simp [h2]; omega

/-- Memory under a key differs from memory as it stands in bytes of its blocks and in the keys that the blocks are held under:
afterwards that one. -/
theorem State.reblock_spec (s : State) (c b : Nat) : ∃ m l,
    s.reblock c b = { s with mem := m, pkg := { s.pkg with ciphers := l } } ∧ (Memory.wf s.mem = true → Memory.wf m = true) ∧
      FMap.get 0 l b = c ∧ ∀ x, FMap.get 0 s.pkg.ciphers x = c → FMap.get 0 l x = c := by
  unfold State.reblock
  by_cases h : FMap.get 0 s.pkg.ciphers b = c
  · exact ⟨s.mem, s.pkg.ciphers, by simp [h], id, h, fun _ hx => hx⟩
  · refine ⟨_, if c = 0 then FMap.drop b s.pkg.ciphers else FMap.set b c s.pkg.ciphers, by simp only [h, if_false]; rfl,
      Memory.wf_writeList _ _ _, ?_, ?_⟩
    · split <;> simp_all [FMap.get_drop]
    · intro x hx
      split <;> simp_all [FMap.get_set, FMap.get_drop]

/-- A block held under the key of the access is as it stands. -/
theorem State.reblock_same {s : State} {c b : Nat} (h : FMap.get 0 s.pkg.ciphers b = c) : s.reblock c b = s := by
  simp [State.reblock, h]

theorem State.reblocks_spec (c k n : Nat) (s : State) : ∃ m l,
    (List.range n).foldl (fun s i => State.reblock s c (k + i)) s = { s with mem := m, pkg := { s.pkg with ciphers := l } } ∧
      (Memory.wf s.mem = true → Memory.wf m = true) ∧ (∀ i, i < n → FMap.get 0 l (k + i) = c) ∧
      ∀ x, FMap.get 0 s.pkg.ciphers x = c → FMap.get 0 l x = c := by
  induction n with
  | zero => exact ⟨s.mem, s.pkg.ciphers, rfl, id, by omega, fun _ h => h⟩
  | succ n ih =>
    obtain ⟨m, l, h, hw, hi, hk⟩ := ih
    rw [List.range_succ, List.foldl_append, h]
    obtain ⟨m', l', h', hw', hb, hk'⟩ := State.reblock_spec { s with mem := m, pkg := { s.pkg with ciphers := l } } c (k + n)
    refine ⟨m', l', by simpa using h', fun hs => hw' (hw hs), ?_, fun x hx => hk' x (hk x hx)⟩
    intro i hlt
    by_cases he : i = n
    · exact he ▸ hb
    · exact hk' _ (hi i (by omega))

theorem State.underKey_spec (s : State) (c a n : Nat) : ∃ m l,
    s.underKey c a n = { s with mem := m, pkg := { s.pkg with ciphers := l } } ∧ (Memory.wf s.mem = true → Memory.wf m = true) ∧
      ∀ x, a ≤ x → x < a + n → FMap.get 0 l (x / 16) = c := by
  unfold State.underKey
  by_cases h : n = 0
  · exact ⟨s.mem, s.pkg.ciphers, by simp [h], id, by omega⟩
  · obtain ⟨m, l, e, hw, hi, -⟩ := State.reblocks_spec c (a / 16) ((a + n - 1) / 16 - a / 16 + 1) s
    refine ⟨m, l, by simpa [h] using e, hw, fun x h1 h2 => ?_⟩
    have := hi (x / 16 - a / 16) (by omega)
    rwa [Nat.add_sub_cancel' (by omega)] at this

/-- Windows on the chip are never encrypted. -/
theorem State.under_chip {s : State} {h : Home} (n : Nat) (hw : h.win ≠ .dram) : s.under h n = s := by simp [State.under, hw]

/-- With no block held under a key, memory without a key is as it stands. -/
theorem State.underKey_clear (s : State) (a n : Nat) (h : s.pkg.ciphers = []) : s.underKey 0 a n = s := by
  have : ∀ l : List Nat, l.foldl (fun s i => State.reblock s 0 (a / 16 + i)) s = s := by
    intro l
    induction l with
    | nil => rfl
    | cons i l ih => rw [List.foldl_cons, State.reblock_same (by simp [h, FMap.get]), ih]
  simp [State.underKey, this]

@[simp] theorem State.under_slots (s : State) (h : Home) (n : Nat) : (s.under h n).slots = s.slots := by
  unfold State.under
  split
  · obtain ⟨m, l, e, -, -⟩ := s.underKey_spec h.cipher h.key n; rw [e]
  · rfl

@[simp] theorem State.under_cores (s : State) (h : Home) (n : Nat) : (s.under h n).cores = s.cores := by
  unfold State.under
  split
  · obtain ⟨m, l, e, -, -⟩ := s.underKey_spec h.cipher h.key n; rw [e]
  · rfl

theorem State.under_wf (s : State) (h : Home) (n : Nat) (hw : Memory.wf s.mem = true) : Memory.wf (s.under h n).mem = true := by
  unfold State.under
  split
  · obtain ⟨m, l, e, hm, -⟩ := s.underKey_spec h.cipher h.key n
    rw [e]; exact hm hw
  · exact hw

end Machine
end Sys2Proof
end

