-- ==== Sys2Proof/Laws/Issue.lean ====
section
/-!
SUPPORT. What issuing does, said once: an instruction whose conditions hold acts; the ends of `gated`, `waited` and
the checks of an access; the trap entry.
-/
namespace Sys2Proof
namespace Machine

theorem State.gated_issues (s : State) (srcs : List Src) (d : Fin 32) (head : Bool) (act : State → State)
    (h : s.issues (srcs.map (·.1)) d = true) (hh : (head && s.speculative s.cur) = false) :
    s.gated srcs d head act = .next (act s) := by
  simp only [State.issues, Bool.and_eq_true, List.all_map, List.all_eq_true, Function.comp] at h
  have h1 : srcs.find? (fun r => r.2 && !s.curSlot.ready r.1) = none := by
    rw [List.find?_eq_none]; intro r hr; simp [h.1 r hr]
  have h2 : srcs.any (fun r => !s.curSlot.ready r.1) = false := by
    rw [List.any_eq_false]; intro r hr; simp [h.1 r hr]
  have h3 : s.curSlot.pending d = false := by simpa using h.2
  unfold State.gated
  simp only [h1, h2, h3, hh]
  rfl

theorem State.gated_head (s : State) (srcs : List Src) (d : Fin 32) (act : State → State)
    (h : s.issuesHead (srcs.map (·.1)) d = true) : s.gated srcs d true act = .next (act s) := by
  simp only [State.issuesHead, Bool.and_eq_true] at h
  exact s.gated_issues srcs d true act h.1 (by simpa using h.2)

/-- Whatever happens at issue: an empty-register trap, a lost turn, or the act. -/
theorem State.gated_cases (s : State) (srcs : List Src) (d : Fin 32) (head : Bool) (act : State → State) :
    (∃ r ∈ srcs, r.2 = true ∧ s.curSlot.ready r.1 = false ∧
      s.gated srcs d head act = .next (s.trap 0x04 (BitVec.ofNat 64 r.1.val))) ∨
    s.gated srcs d head act = .next s.bubble ∨ s.gated srcs d head act = .next s.pause ∨
    (s.issues (srcs.map (·.1)) d = true ∧ s.gated srcs d head act = .next (act s)) := by
  unfold State.gated
  dsimp only
  split
  · rename_i r hr
    have hp := List.find?_some hr
    simp only [Bool.and_eq_true, Bool.not_eq_true'] at hp
    exact .inl ⟨r, List.mem_of_find?_eq_some hr, hp.1, hp.2, rfl⟩
  · split
    · exact .inr (.inl rfl)
    · rename_i hn
      split
      · exact .inr (.inr (.inl rfl))
      · refine .inr (.inr (.inr ⟨?_, rfl⟩))
        simp only [Bool.or_eq_true, not_or, Bool.not_eq_true, List.any_eq_false] at hn
        simp only [State.issues, Bool.and_eq_true, List.all_map, List.all_eq_true, Function.comp, Bool.not_eq_true']
        exact ⟨fun r hr => by simpa using hn.1 r hr, by simpa using hn.2⟩

/-- Every issue answers a next state. -/
theorem State.gated_next (s : State) (srcs : List Src) (d : Fin 32) (head : Bool) (act : State → State) :
    ∃ t, s.gated srcs d head act = .next t := by
  rcases s.gated_cases srcs d head act with ⟨_, _, _, _, h⟩ | h | h | ⟨_, h⟩ <;> exact ⟨_, h⟩

theorem State.waited_clear (s : State) (mask : Nat) (act : State → State)
    (h : (maskTokens mask).all (fun t => !(s.curSlot.token t).waits && (s.curSlot.token t).kind != .fault) = true) :
    s.waited mask act = act s := by
  rw [List.all_eq_true] at h
  have h1 : (maskTokens mask).any (fun t => (s.curSlot.token t).waits) = false := by
    rw [List.any_eq_false]; intro t ht; have := h t ht; simp only [Bool.and_eq_true] at this; simpa using this.1
  have h2 : (maskTokens mask).find? (fun t => (s.curSlot.token t).kind == .fault) = none := by
    rw [List.find?_eq_none]; intro t ht; have := h t ht; simp only [Bool.and_eq_true] at this; simpa using this.2
  unfold State.waited
  simp [h1, h2]

theorem State.gatedE_issues (s : State) (srcs : List (Fin 32)) (d : Fin 32) (mask : Nat) (head : Bool)
    (act : State → State) (h : s.issuesE srcs d mask = true) (hh : (head && s.speculative s.cur) = false) :
    s.gatedE srcs d mask head act = .next (act s) := by
  simp only [State.issuesE, Bool.and_eq_true] at h
  unfold State.gatedE
  rw [State.gated_issues _ _ _ _ _ (by simpa [List.map_map, Function.comp_def] using h.1) hh,
    State.waited_clear _ _ _ h.2]

theorem State.gatedE_next (s : State) (srcs : List (Fin 32)) (d : Fin 32) (mask : Nat) (head : Bool)
    (act : State → State) : ∃ t, s.gatedE srcs d mask head act = .next t := State.gated_next ..

/-- A trap with a handler: the trap registers are written, INTRAP is set, the pc stands at the handler. -/
theorem State.enterTrap_handler (s : State) (k cause : Nat) (asyn : Bool) (p v : Word)
    (h1 : (s.slotAt k).intrap = false) (h2 : (s.slotAt k).csr.tvec ≠ 0) :
    s.enterTrap k cause asyn p v = s.setSlot k
      { (({ (s.slotAt k).withTrap cause asyn p v with hold := none, reissue := false } : Slot).setIntrap true) with
        pc := (s.slotAt k).csr.tvec } := by
  have hb : ((s.slotAt k).csr.tvec != 0) = true := bne_iff_ne.mpr h2
  unfold State.enterTrap
  simp only [h1, hb, Bool.not_false, Bool.and_self, if_true]

@[simp] theorem State.modSlots_mem (s : State) (l : List Nat) (f : Slot → Slot) : (s.modSlots l f).mem = s.mem := by
  induction l generalizing s with
  | nil => rfl
  | cons k l ih => exact ih (s.modSlot k f)

@[simp] theorem State.saveLater_mem (s : State) (id : Nat) : (s.saveLater id).mem = s.mem := by
  unfold State.saveLater
  split <;> rfl

@[simp] theorem State.stopTask_mem (s : State) (id : Nat) (e : SaveEnd) : (s.stopTask id e).mem = s.mem := by
  simp [State.stopTask]

/-- Only slots, tasks and the timers can change at a trap. -/
theorem State.enterTrap_mem (s : State) (k cause : Nat) (asyn : Bool) (p v : Word) :
    (s.enterTrap k cause asyn p v).mem = s.mem := by
  unfold State.enterTrap
  dsimp only
  split
  · rfl
  · split <;> simp

@[simp] theorem State.trap_mem (s : State) (c : Nat) (v : Word) : (s.trap c v).mem = s.mem :=
  State.enterTrap_mem ..

theorem State.checked_ok (s : State) (va : Word) (w : Nat) (need : Need) (ok : Home → Bool)
    (act : Range → Nat → State → State) (e : Range) (spa : Nat)
    (h : s.checkAccess s.cur va w need = .ok (e, spa)) (h2 : ok (s.home spa) = true) :
    s.checked va w need ok act = act e spa s := by
  simp [State.checked, h, h2]

end Machine
end Sys2Proof
end

