-- ==== Sys2Proof/Tests/Slice0.lean ====
section
/-!
SUPPORT. Tests: words of the encoding tables, terms that are not well formed, states that meet the hypotheses of the
statements, and single steps.
-/
namespace Sys2Proof
namespace Tests
open Machine

set_option Elab.async false

/-! ## Small states -/

/-- A state with values in the general registers of the slot that has the turn. -/
def put (l : List (Fin 32 × Word)) (s : State) : State := s.modCur (fun x => l.foldl (fun x e => x.setReg e.1 e.2) x)

/-- Pages 0x20 to 0x22 of address space 0: the local memory of core 0, and the start of the DRAM of dies 0 and 1. -/
def lmRange : Range := { placedRange with base := 0x20, limit := 0x20, phys := lmBase 0 / 65536 }
def farRange : Range := { placedRange with base := 0x22, limit := 0x22, phys := mkSpa 1 0 0 / 65536, x := false }

/-- Slot 0 of core 0 with its code in DRAM, its own local memory at 0x20_0000 and the DRAM of die 1 at 0x22_0000. -/
def desk : State :=
  State.reset.placeSlot.modDie 0 (fun d => { d with ranges := [(0, placedRange), (1, lmRange), (2, farRange)] })

/-- The desk with 7 in g1, minus 11 in g2, addresses in g4 (local memory), g5 (DRAM) and g6 (another die). -/
def desk1 : State := put [(1, 7), (2, 0xFFFFFFFFFFFFFFF5), (4, 0x200040), (5, 0x100000), (6, 0x220000)] desk

/-- The desk with g1 empty and g2 pending. -/
def desk2 : State := desk1.modCur (fun x => (x.setSt 1 .empty).setSt 2 .pending)

/-- The desk with trap bits, a handler, and the slot in it or not. -/
def armed (inTrap idze : Bool) (tpc : Word) : State :=
  desk1.modCur (fun x => { x with csr := { x.csr with
    tstat := (if inTrap then 1 else 0) + (if idze then 2 else 0), tvec := 0x100040, tpc := tpc } })

/-! ## The statements about scalar instructions have states that meet their hypotheses -/

theorem witness_integer : desk1.issues [1, 2] 3 = true ∧ desk1.issues [3] 3 = true ∧ desk1.issues [1] 3 = true ∧
    desk1.issues [] 3 = true ∧ desk1.issues [1, 2] 0 = true := by decide +kernel
theorem witness_division_by_zero :
    (armed false true 0).issues [1, 3] 8 = true ∧ (armed false true 0).reg 3 = 0 ∧
    (armed false true 0).curSlot.csr.tstat.getLsbD 1 = true ∧
    (armed false false 0).issues [1, 3] 8 = true ∧ (armed false false 0).reg 3 = 0 ∧
    (armed false false 0).curSlot.csr.tstat.getLsbD 1 = false := by decide +kernel
theorem witness_division : desk1.issues [1, 2] 3 = true ∧ desk1.reg 2 ≠ 0 := by decide +kernel
theorem witness_bit_field : 63 + 1 + 0 ≤ 64 ∧ 0 + 1 + 63 ≤ 64 ∧ desk1.issues [2] 3 = true ∧ desk1.issues [3] 3 = true := by
  decide +kernel
theorem witness_empty_register : desk2.curSlot.ready 1 = false ∧ desk2.curSlot.ready 2 = false ∧
    desk2.curSlot.pending 2 = true ∧ desk2.issues [4, 5] 0 = true := by decide +kernel
theorem witness_targets :
    desk.checkTarget 0 0x100000 = none ∧ desk.checkTarget 0 0x1000FC = none ∧ desk.checkTarget 0 0x100100 = some ⟨0x02, 0x100100⟩ ∧
    desk.checkTarget 0 0xFFFFC = some ⟨0x02, 0xFFFFC⟩ ∧ desk.checkTarget 0 0x100002 = some ⟨0x03, 0x100002⟩ := by
  decide +kernel
theorem witness_system : desk1.issues [1] 3 = true ∧ desk1.issues [] 0 = true ∧ desk1.curSlot.wake = false ∧
    (desk1.modCur (fun x => { x with wake := true })).curSlot.wake = true ∧
    (desk1.modCur (fun x => { x with wake := true })).issues [] 0 = true ∧
    FMap.find (desk1.coreAt (coreOfSlot desk1.cur)).journal (desk1.curSlot.csr.tjrn.toNat / 2 ^ 10 % 64) = none ∧
    desk1.issues [1] 3 = true ∧ 0x010 ≤ (0x038 : Fin 4096).val := by decide +kernel
theorem witness_empty : (31 : Fin 32) ≠ 0 ∧ 31 + 0 + 1 ≤ 32 ∧ ∀ r : Fin 32, 31 ≤ r → r.val ≤ 31 + 0 → desk1.curSlot.pending r = false := by
  decide +kernel
theorem witness_return_from_trap :
    desk1.curSlot.intrap = false ∧ (armed true false 0x100004).curSlot.intrap = true ∧
    (armed true false 0x100004).checkTarget 0 (armed true false 0x100004).curSlot.csr.tpc = none ∧
    (armed true false 3).curSlot.intrap = true ∧
    (armed true false 3).checkTarget 0 (armed true false 3).curSlot.csr.tpc = some ⟨0x03, 3⟩ := by decide +kernel
theorem witness_trap_entry : (armed false false 0).curSlot.intrap = false ∧ (armed false false 0).curSlot.csr.tvec ≠ 0 ∧
    0x21 < 2 ^ 63 := by decide +kernel
theorem witness_trap_without_handler :
    desk1.curSlot.bind = some { task := 0 } ∧ desk1.findTask 0 = some placedTask ∧ desk1.curSlot.csr.tvec = 0 ∧
    (armed true false 0).curSlot.bind = some { task := 0 } ∧ (armed true false 0).findTask 0 = some placedTask ∧
    (armed true false 0).curSlot.intrap = true := by decide +kernel

/-! ## Memory, synchronisation and bit streams -/

/-- The local memory word at 0x20_0040 as memory is keyed. -/
def lmKey : Nat := lmBase 0 + 0x40

/-- The desk with a word in local memory, full or empty. -/
def worded (full : Bool) : State :=
  let s : State := desk1.store lmKey (leBytes 8 0x8000000180000001)
  { s with full := if full then [lmKey / 8] else [] }

/-- The desk with the first line of its code page in the L1. -/
def cached : State :=
  desk1.modCore 0 (fun c => { c with l1 := [{ line := 0, bytes := leBytes 32 0x0807060504030201, dirty := List.replicate 32 false }] })

theorem witness_own_word :
    Memory.wf (worded true).mem = true ∧ (worded true).issues [4] 3 = true ∧ (worded true).issues [3, 4] 0 = true ∧
    (worded true).ownWord 0x200040 8 .read = some lmKey ∧ (worded true).ownWord 0x200040 4 .read = some lmKey ∧
    (worded true).ownWord 0x20FFFE 2 .read = some (lmBase 0 + 0xFFFE) ∧
    (worded true).ownWord 0x20FFFF 1 .read = some (lmBase 0 + 0xFFFF) ∧
    (worded true).ownWord 0x200040 8 .write = some lmKey ∧ (worded true).ownWord 0x20FFFC 4 .write = some (lmBase 0 + 0xFFFC) ∧
    (worded true).ownWord 0x20FFFE 2 .write = some (lmBase 0 + 0xFFFE) ∧
    (worded true).ownWord 0x200000 1 .write = some (lmBase 0) := by decide +kernel
theorem witness_cached :
    cached.issues [5] 1 = true ∧ cached.issues [1, 5] 0 = true ∧ cached.plain = true ∧ (cached.home 0).win = .dram ∧ (cached.home 0).outside = false ∧
    cached.journalBlocks cached.cur 0x100000 8 = false ∧ placedRange.decoded = false ∧
    (∀ w ∈ [1, 2, 4, 8], (cached.checkAccess cached.cur (0x100020 - BitVec.ofNat 64 w) w .read).toOption = some (placedRange, 0x20 - w) ∧
      (cached.checkAccess cached.cur (0x100020 - BitVec.ofNat 64 w) w .write).toOption = some (placedRange, 0x20 - w) ∧
      (cached.checkAccess cached.cur 0x100020 w .read).toOption = some (placedRange, 0x20) ∧
      (cached.checkAccess cached.cur 0x100020 w .write).toOption = some (placedRange, 0x20)) ∧
    ((cached.coreAt 0).findL 0).isSome = true ∧ (cached.coreAt 0).findL 1 = none := by
  decide +kernel
theorem witness_full_empty : Memory.wf (worded true).mem = true ∧ (worded true).speculative 0 = false ∧ (worded true).issues [4] 3 = true ∧
    (worded true).issues [3, 4] 0 = true ∧ (worded true).ownWord 0x200040 8 .both = some lmKey ∧
    (worded true).isFull lmKey = true ∧ (worded false).isFull lmKey = false ∧
    (worded false).ownWord 0x200040 8 .write = some lmKey ∧ (worded false).issues [3, 4] 0 = true ∧
    (worded false).ownWord 0x200040 8 .read = some lmKey := by decide +kernel
theorem witness_atomics : Memory.wf (worded true).mem = true ∧ (worded true).issuesHead [4, 1] 3 = true ∧
    (worded true).ownWord ((worded true).reg 4) 8 .both = some lmKey ∧ (worded true).ownWord ((worded true).reg 4) 4 .both = some lmKey ∧
    (worded true).issues [3] 3 = true := by decide +kernel
theorem witness_remote : desk1.issuesHead [6] 3 = true ∧ desk1.issuesHead [6, 1] 0 = true ∧ desk1.issuesHead [6, 1] 3 = true ∧
    desk1.reaches (desk1.reg 6) 8 .read (fun h => h.plainOk false 8) = some (mkSpa 1 0 0) ∧
    desk1.reaches (desk1.reg 6) 1 .write (fun h => h.plainOk true 1) = some (mkSpa 1 0 0) ∧
    desk1.reaches (desk1.reg 6) 8 .both (fun h => h.synchronises) = some (mkSpa 1 0 0) ∧
    desk1.reaches (desk1.reg 6) 8 .write (fun h => h.synchronises) = some (mkSpa 1 0 0) ∧ desk1.secondWait (mkSpa 1 0 0) = false ∧
    (desk1.coreAt (coreOfSlot desk1.cur)).freeEntry = some 0 ∧ desk1.journalSlot desk1.cur = some 0 := by decide +kernel
theorem witness_synchronising : Memory.wf (worded true).mem = true ∧ (worded true).allClean = true ∧
    ((worded true).coreAt (coreOfSlot (worded true).cur)).journal = [] ∧ (worded true).isFull lmKey = true ∧
    (worded true).issuesHead [4] 3 = true ∧ (worded true).issuesHead [4, 1] 0 = true ∧ (worded true).issuesHead [] 0 = true ∧
    (worded true).ownObject ((worded true).reg 4) 0 .read = some lmKey ∧
    (worded true).ownObject ((worded true).reg 4) 4 .both = some lmKey ∧
    (worded true).ownObject ((worded true).reg 4) 4 .write = some lmKey := by decide +kernel
theorem witness_binding : desk1.issuesHead [5, 4] 0 = true ∧ (desk1.reg 5).toNat < 2 ^ 48 ∧
    (desk1.entriesOf (dieOfSlot desk1.cur) (desk1.slotTask desk1.cur)).find? (fun e => e.2.holdsVa (desk1.reg 5).toNat) = some (0, placedRange) ∧
    desk1.reg 3 = 0 ∧ desk1.reg 4 ≠ 0 ∧ (desk1.reg 4).toNat % 8 = 0 ∧ (desk1.slotTask desk1.cur).binds.length < 8 := by decide +kernel
theorem witness_queue_fence : desk1.issuesHead [] 0 = true ∧ desk1.queuesFree 0 0x3FF = true ∧ desk1.queuesFree 0 1 = true := by
  decide +kernel
/-- The desk with instruction lines of core 0, pinned for a partition or not, and its first data line. -/
def coded (pins : List (Nat × Option Nat)) (l : List L1Line) : State :=
  desk1.modCore 0 (fun c => { c with
    icache := pins.map (fun p => { asid := 0, line := p.1, words := [], pin := p.2 }), l1 := l })
def line0 (b : Bool) : L1Line := { line := 0, bytes := leBytes 32 7, dirty := List.replicate 32 b }

theorem witness_code_lines :
    (let s := coded [(0x100000 / 32, some 0)] []
     s.issues [5] 3 = true ∧ s.issues [5] 0 = true ∧ s.codeLine 0x100000 = some 0 ∧ (s.home 0).win = .dram ∧
     (s.readLine 0).1 = 0 ∧ s.lostChunk 0 = none ∧ s.lostHome (s.home 0) = false ∧ s.codeHeld = false ∧
     (∀ c ∈ s.codeTargets true, s.fillPending c 0 (0x100000 / 32) = false) ∧
     (∀ c ∈ s.codeTargets true, (s.coreAt c).overPinned 0 [0x100000 / 32] = false) ∧
     (s.coreAt 0).icache.map (fun i => (i.asid, i.line, i.pin)) = [(0, 0x100000 / 32, some 0)] ∧ s.codeTargets false = [0]) ∧
    (let s := coded [(128, some 0), (256, some 1)] []
     s.issues [5] 3 = true ∧ s.codeHeld = false ∧ (s.coreAt (coreOfSlot s.cur)).overPinned 0 [0x100000 / 32] = true) := by decide +kernel
theorem witness_data_lines :
    (let s := coded [] []
     s.dataLines 5 0 = [(placedRange, 0)] ∧ placedRange.r = true ∧ (s.coreAt 0).findL 0 = none ∧ (s.clusterAt 0).merges = []) ∧
    (let s := coded [] [line0 false]
     s.dataLines 5 0 = [(placedRange, 0)] ∧ (s.coreAt 0).findL 0 ≠ none ∧ s.wbInFlight 0 0 = false ∧ s.issuesHead [5] 0 = true ∧
     (∀ i ∈ (s.coreAt 0).l1, i.isDirty = false)) ∧
    (let s := coded [] [line0 true]
     s.dataLines 5 0 = [(placedRange, (line0 true).line)] ∧ (s.coreAt 0).l1.filter (fun k => k.line == 0) = [line0 true] ∧
     (line0 true).isDirty = true ∧ s.heldLine (line0 true).line = false ∧ s.curSlot.reissue = false ∧ s.wbs = [] ∧ s.issuesHead [5] 0 = true ∧
     placedRange.w = true ∧ (s.modCur Slot.again).curSlot.reissue = true ∧ (s.modCur Slot.again).issuesHead [5] 0 = true) := by
  decide +kernel

/-- The desk with the bit buffer reading or writing at the local memory word. -/
def streaming (cnt : Nat) : State :=
  desk1.modCur (fun x => { x with bb := { win := 0x8B, cnt := cnt, ptr := 0x200040, lim := 0x200048 } })

theorem witness_bit_buffer : desk1.issues [4, 5] 0 = true ∧ (desk1.reg 5).toNat % 8 = 0 ∧
    (desk1.reg 5).toNat ≤ (desk1.reg 4).toNat ∧ (streaming 64).issues [] 3 = true ∧ (63 : Fin 64).val < (streaming 64).curSlot.bb.cnt ∧
    (streaming 3).issues [] 0 = true ∧ 3 ≤ (streaming 3).curSlot.bb.cnt ∧ (streaming 3).issues [1] 0 = true ∧
    (streaming 3).curSlot.bb.cnt + 59 + 1 < 64 ∧ (streaming 0).issues [] 0 = true ∧ (streaming 0).curSlot.bb.cnt = 0 := by
  decide +kernel
theorem witness_bit_align :
    ∃ z : Int, 8 * ((streaming 3).curSlot.bb.ptr.toNat : Int) - ((streaming 3).curSlot.bb.cnt : Nat) + (3 : Nat) = z * ((7 : Fin 64).val + 1) :=
  ⟨0x200040, by decide +kernel⟩
theorem witness_bit_flush : Memory.wf (streaming 8).mem = true ∧ (streaming 8).issues [] 0 = true ∧ 0 < (streaming 8).curSlot.bb.cnt ∧
    (streaming 8).curSlot.bb.cnt ≤ 8 ∧ (streaming 8).curSlot.bb.ptr.toNat < (streaming 8).curSlot.bb.lim.toNat ∧
    (match (streaming 8).bitAddr (streaming 8).curSlot.bb.ptr.toNat 1 .write with | .ok k => k == lmKey | .error _ => false) = true := by
  decide +kernel

/-! ## Numbers and vectors -/

/-- What an access within an instruction gave, and the state that it left. -/
def gave {α : Type} (g : Got α) : Option α :=
  match g with
  | .ok _ v => some v
  | _ => none
def left {α : Type} (g : Got α) (s : State) : State :=
  match g with
  | .ok t _ => t
  | _ => s

/-- The desk with floating trap enables, 1.0, 3.0, a signalling NaN and infinity in FP64. -/
def floats (enables : Nat) : State :=
  put [(1, 0x3FF0000000000000), (2, 0x4008000000000000), (3, 0x7FF0000000000001), (7, 0x7FF0000000000000)]
    (desk1.modCur (fun x => { x with csr := { x.csr with fcsr := BitVec.ofNat 64 (2 ^ 40 + 256 * enables) } }))

theorem witness_floating : (floats 0).issues [1, 2] 8 = true ∧ (floats 0).issues [1, 2, 3] 8 = true ∧ (floats 0).issues [1] 8 = true ∧
    (floats 0).curSlot.enabledFlags (fp64.addBits ((floats 0).roundMode 7) (fp64.bits ((floats 0).reg 1)) (fp64.bits ((floats 0).reg 3))).2 = 0 ∧
    (floats 31).issues [1, 3] 8 = true ∧
    (let fl := ((fmtOf 0).addBits ((floats 31).roundMode 7) ((fmtOf 0).bits ((floats 31).reg 1)) ((fmtOf 0).bits ((floats 31).reg 3))).2
     fl ≠ 0 ∧ (floats 31).curSlot.enabledFlags fl ≠ 0) := by decide +kernel
theorem witness_exact_sum : Memory.wf (floats 0).mem = true ∧ (floats 0).ownWord ((floats 0).reg 4) 64 .both = some lmKey ∧
    (floats 0).issuesHead [4] 0 = true ∧ (floats 0).issuesHead [4, 2] 0 = true ∧ (floats 0).issuesHead [4] 3 = true ∧
    (floats 0).curSlot.enabledFlags ((fmtOf 3).snanFlag [(fmtOf 3).bits ((floats 0).reg 2)]) = 0 := by decide +kernel

/-- The desk with 16 lanes, VL and e1 as given, and a few elements in v1 to v3. -/
def lanes (vl e1 : Nat) : State :=
  desk1.modCur (fun x => { x with
    claim := some ⟨16, [0, 1]⟩, eng := [(0, BitVec.ofNat 64 vl), (1, BitVec.ofNat 64 e1)],
    vreg := [(128, 0x3F800000), (129, 0xC0400000), (130, 0x7F800001), (131, 0x40490FDB), (256, 0x40000000), (257, 0x00000001),
      (258, 0x7F800000), (259, 0x00000003), (384, 0x00000008), (385, 0x00000010)] })

theorem witness_vector : (lanes 4 0).vecCheck false .none = 0 ∧ (lanes 16 0).vecCheck false .none = 0 ∧
    (lanes 8 0).vecCheck true .none = 0 ∧ (lanes 16 0).curSlot.lanes ≤ 128 ∧ (lanes 4 0).issues [1] 0 = true ∧
    (lanes 4 0).issues [] 31 = true ∧ (lanes 4 3).vecCheck false (.cmp true) = 0 ∧ (lanes 4 5).vecCheck false (.cmp false) = 0 ∧
    (lanes 4 0x600).vecCheck false .mtype = 0 := by decide +kernel
theorem witness_exchange :
    let s := lanes 4 0x10000
    s.issues [] 8 = true ∧ (8 : Fin 32) ≠ 0 ∧ s.vecCheck false .mxw = 0 ∧
    bitAt (fieldAt (s.curSlot.engReg 1) 16 8) (coreOfSlot s.cur % 8) = true ∧
    fieldAt (s.curSlot.engReg 1) 16 8 = 2 ^ (coreOfSlot s.cur % 8) ∧ fieldAt (s.curSlot.engReg 1) 12 3 = 0 ∧
    (s.clusterAt (clusterOfSlot s.cur)).exchanges = [] ∧ s.openExchanges (clusterOfSlot s.cur) < 8 ∧ s.curSlot.bind ≠ none ∧
    s.copiesOf s.curSlot.who = [s.cur] ∧ s.msgs = [] ∧
    s.curSlot.enabledFlags (largestMagnitude ((List.range s.curSlot.vl).map (s.curSlot.velem 0 1))).2 = 0 := by decide +kernel
theorem witness_claims : desk1.issues [1] 3 = true ∧ desk1.curSlot.claim = none ∧ desk1.twin desk1.cur = none ∧
    (lanes 4 0).issues [1] 3 = true ∧ (lanes 4 0).curSlot.claim ≠ none ∧ (lanes 4 0).twin (lanes 4 0).cur = none ∧
    (lanes 4 0).issues [] 0 = true := by decide +kernel

/-- The same with bytes in local memory. -/
def lanesOn (vl e1 : Nat) : State := (lanes vl e1).store lmKey (leBytes 16 0x0000000440400000000000093F800000)

theorem witness_vector_memory :
    let s := lanesOn 4 0
    let as := (List.range s.curSlot.vl).map (fun i => s.reg 4 + BitVec.ofNat 64 i * 4)
    s.vecCheck (s.curSlot.mtype == 1) .mtype = 0 ∧ s.issues [4] 0 = true ∧ s.issues [4, 1] 0 = true ∧
    s.storedAt s.cur 0 (s.reg 4).toNat = 4 ∧ s.firstFault s.cur 0 false as = none ∧
    gave (s.readElems s.cur 0 as) = some [0x3F800000, 9, 0x40400000, 4] ∧ s.firstFault s.cur 0 true as = none ∧
    (gave (s.writeElems s.cur 0 (as.zipIdx.map (fun e => (e.1, s.curSlot.velem 0 1 e.2))))).isSome = true ∧
    s.curSlot.intrap = false := by decide +kernel
theorem witness_indexed : (lanesOn 0 0).curSlot.vl = (lanesOn 0 0).curSlot.startAt ∧ (lanesOn 0 0).issues [4] 0 = true ∧
    (lanesOn 0 0).vecCheck ((lanesOn 0 0).curSlot.mtype == 1) .mtype = 0 ∧
    (lanesOn 1 0).curSlot.vl = (lanesOn 1 0).curSlot.startAt + 1 ∧ (lanesOn 1 0).issues [4] 0 = true ∧
    gave ((lanesOn 1 0).readElem 0 0 ((lanesOn 1 0).reg 4 + ((lanesOn 1 0).curSlot.lane 3 0).setWidth 64)) = some 0x40400000 ∧
    (gave ((lanesOn 1 0).writeElem 0 0 ((lanesOn 1 0).reg 4 + ((lanesOn 1 0).curSlot.lane 3 0).setWidth 64) 5)).isSome = true := by
  decide +kernel

/-- A chained pass in local memory: four FP32 elements, each plus the constant 1.0. -/
def chained : State := (lanes 4 0).store lmKey (leBytes 128 (4 + 0x200040 * 2 ^ 64 + 0x200050 * 2 ^ 192 + 0x80 * 2 ^ 256 + 0x3F800000 * 2 ^ 512))

theorem witness_chain : chained.issues [4] 0 = true ∧ chained.curSlot.intrap = false ∧ chained.curSlot.claim ≠ none ∧
    chained.chainCheck = 0 ∧
    (chained.reg 4).toNat % 64 = 0 ∧ (gave (chained.readBlock chained.cur (chained.reg 4) 16)).map chainBad = some none ∧
    (gave ((lanes 4 0).readBlock (lanes 4 0).cur ((lanes 4 0).reg 4) 16)).map chainBad = some (some 8) ∧
    desk1.issues [4] 0 = true ∧ desk1.curSlot.intrap = false ∧ desk1.curSlot.claim = none ∧ desk1.chainCheck ≠ 0 ∧
    (lanes 256 0).chainCheck ≠ 0 := by
  decide +kernel

/-! ## Matrices and gathers -/

/-- Pages 0x24 and 0x25: a codebook range and a range of FP16 groups, in the DRAM of die 0. -/
def codeRange : Range := { placedRange with base := 0x24, limit := 0x24, phys := 1, x := false, efmt := 8 }
def groupRange : Range := { placedRange with base := 0x25, limit := 0x25, phys := 2, x := false, efmt := 2 }

/-- A configuration: FP32 operands and results, 16 accumulator tiles, 64 B-store units, from 0 on. -/
def matCfg : Word := BitVec.ofNat 64 (16 * 2 ^ 20 + 64 * 2 ^ 44)

/-- The desk with the matrix context of core 0 owned by the task, and its queue. -/
def matrix (q : List MatCmd) : State :=
  (desk1.modDie 0 (fun d => { d with ranges := d.ranges ++ [(3, codeRange), (4, groupRange)] })).modCore 0
    (fun c => { c with mat := { owner := some { task := 0 }, e := [(16, matCfg)], queue := q, lastPart := some 0 } })

theorem witness_matrix_queue :
    let s := put [(8, 0x10001), (9, 1), (10, 0xFFFFFFFFF), (11, 0x1FFF), (12, 0x203C1)] (matrix [])
    s.takesMatrix [4, 8] 7 255 = true ∧ s.takesMatrix [8] 7 0 = true ∧ (s.reg 10).toNat < 2 ^ 36 ∧
    (FMap.get 0 (s.coreAt 0).mat.e 18).toNat < 2 ^ 32 ∧ (s.reg 8).toNat < 2 ^ 45 ∧ badBTile 0 matCfg (fieldAt (s.reg 8).toNat 32 13) = false ∧
    badBTile 0 matCfg 60 = false ∧ (s.reg 4).toNat < 2 ^ 48 ∧ s.takesMatrix [4, 12] 0 0 = true ∧ (s.reg 12).toNat < 2 ^ 28 ∧ fieldAt (s.reg 12).toNat 17 11 < cfgAccN matCfg ∧
    badBTile 0 matCfg (fieldAt (s.reg 12).toNat 4 13) = false ∧ s.reg 9 ≠ 0 ∧ (s.reg 3).toNat + (s.reg 9).toNat ≤ cfgAccN matCfg ∧
    (s.reg 4).toNat < 2 ^ 43 ∧ fieldAt (s.reg 4).toNat 32 11 < cfgAccN matCfg ∧ (s.reg 11).toNat < 2 ^ 17 ∧
    FMap.get 0 (s.coreAt (coreOfSlot s.cur)).mat.e 16 = matCfg := by decide +kernel
theorem witness_matrix_context :
    let s := put [(8, matCfg), (9, 0x8000000000000000)] (matrix [])
    s.issuesE [8] 0 255 = true ∧ s.issuesE [9] 0 0 = true ∧ s.matUse (coreOfSlot s.cur) = 0 ∧ s.ownsMatrix s.cur = true ∧
    (s.reg 9).getLsbD 63 = true ∧ (s.reg 8).getLsbD 63 = false ∧ s.mcfgCode (s.reg 8) = 0 ∧
    ((put [(8, matCfg)] desk1).coreAt 0).mat.owner = none ∧ (put [(8, matCfg)] desk1).matUse 0 = 0 ∧ (put [(8, matCfg)] desk1).issuesE [8] 0 0 = true ∧
    (put [(8, matCfg)] desk1).mcfgCode matCfg = 0 := by decide +kernel

/-- The desk with a group descriptor of one or two members in local memory, and registers for `MGV`. -/
def grouped (members : Nat) : State :=
  ((matrix []).store lmKey (leBytes 64 (0 + (members - 1) * 2 ^ 32 + 5 * 2 ^ 48 + (if members = 1 then 0 else 128 * 2 ^ 208)))).modCur (fun x =>
    { x with eng := [(32, 0x200080), (34, 4)] })

theorem witness_tile_products :
    let s := matrix []
    s.issuesE [3] 0 255 = true ∧ s.curSlot.intrap = false ∧ s.ownsMatrix s.cur = true ∧
    s.mtileCode 0 (s.runOf 7 (s.reg 3)) (s.coreAt 0).mat.halted = 0 ∧ s.matUse 0 = 0 ∧ (s.coreAt 0).mat.paused = none ∧ (s.curSlot.token 7).count < 255 := by
  decide +kernel
theorem witness_matrix_group :
    let s := grouped 2
    s.issuesE [4] 3 255 = true ∧ s.ownsMatrix s.cur = true ∧ (s.reg 4).toNat % 64 = 0 ∧
    (gave (s.readBlock s.cur (s.reg 4) 8)).map (fun d => (gdMember d 0 0, decide (0 < fieldAt d 32 2))) = some (true, true) ∧
    (left (s.readBlock s.cur (s.reg 4) 8) s).cur = s.cur ∧ (left (s.readBlock s.cur (s.reg 4) 8) s).groups = [] ∧
    (∀ bad ∈ [0, 2 ^ 64],
      let y := s.store lmKey (leBytes 64 (5 * 2 ^ 48 + bad))
      let x := left (y.readBlock 0 (y.reg 4) 8) y
      y.issuesE [4] 3 255 = true ∧ y.ownsMatrix y.cur = true ∧ x.cur = y.cur ∧ x.groups = [] ∧ x.ownsMatrix y.cur = true ∧
      (gave (y.readBlock 0 (y.reg 4) 8)).map (fun d => (gdMember d 0 0, fieldAt d 32 2, gdBad d)) = some (true, 0, bad != 0) ∧
      x.copiesOf x.curSlot.who = [y.cur] ∧ (x.slotTask y.cur).id = x.curSlot.who.task) ∧
    (gave ((s.modCur (fun x => { x with stamp := 0 })).readBlock 0 (s.reg 4) 8)).map (fun d => gdMember d 0 1) = some false := by
  decide +kernel
theorem witness_gather :
    let s := put [(8, 0x250000), (9, 0x2000C0)] (grouped 1)
    s.issuesE [8, 9] 0 0 = true ∧ s.curSlot.intrap = false ∧ s.speculative s.cur = false ∧
    s.gvCode false (s.regNat 8) (s.regNat 9) = 0 ∧ s.gvCode true (s.regNat 8) (s.regNat 9) = 0 ∧ (s.curSlot.token 0).count < 255 := by
  decide +kernel

/-- A command of the matrix queue. -/
def matCmd (fn : Nat) (a b : Word) : MatCmd := { fn := fn, who := { task := 0 }, token := 3, ra := a, rb := b, cfg := matCfg }

theorem witness_commands_due :
    (∀ fn ∈ [1, 2, 3, 4, 5, 6, 34], ((matrix [matCmd fn 0x200040 0x10001]).coreAt 0).mat.queue.head? = some (matCmd fn 0x200040 0x10001)) ∧
    (matCmd 2 0 0).join = none ∧ ((matrix [matCmd 2 0 0]).coreAt 0).mat.halted = false ∧
    (matrix [matCmd 2 0 0]).translationHeld ((matrix [matCmd 2 0 0]).taskAt 0).asid = false ∧
    ((matrix [matCmd 2 0 0]).taskAt 0).st ≠ .done := by decide +kernel

/-- What the loads of a tile gave, if they are done. -/
def loaded (l : LoadEnd) : Option (List Nat) :=
  match l with
  | .done _ vals => some vals
  | _ => none

theorem witness_command_results :
    (let x := matCmd 2 0x200040 0x10001
     let s := (matrix [x]).store lmKey (leBytes 4 0x40490FDB)
     loaded ((s.dropJoins 0).loadTile 0 0 0 0 (maskedElems x.ra 0 4 1 1) x.got) = some [0x40490FDB]) ∧
    (let x := matCmd 6 0x10001 0x200040
     let s := matrix [x]
     (s.dropJoins 0).storeDue 0 0 (cfgZ x.cfg) x.rb 0 1 1 = none ∧
     (match (s.dropJoins 0).storeTile 0 0 0 x.cfg (cfgAccBase x.cfg + fieldAt x.ra.toNat 32 11) x.rb 0 1 1 with
       | .ok _ => true
       | .error _ => false) = true) := by decide +kernel
theorem witness_table_load :
    let s := matrix [matCmd 34 0x200040 0x240000]
    s.entryAt 0 0 0x240000 1 = some (3, codeRange) ∧ codeRange.codebook = true ∧ (0x200040 : Word).toNat % 2 = 0 ∧
    s.translate 0 0 0x200040 (2 * codeRange.tableSize) = some (lmRange, lmKey) ∧ lmRange.r = true ∧
    (s.home lmKey).inDie 0 = true ∧ s.chunkDue lmKey (2 * codeRange.tableSize) = none ∧ s.homeReply lmKey (2 * codeRange.tableSize) true = 0 := by decide +kernel

/-- A tile that the sequencer runs for slot 0, and the same at its end. -/
def tile (ready : Bool) (step : Nat) : TileRun :=
  { who := { task := 0 }, slot := some 0, token := 3, mode := 0, cfg := matCfg, regs := [(16, matCfg)], ready := ready, step := step }
def tiled (r : TileRun) : State :=
  ((matrix []).modCore 0 (fun c => { c with mat := { c.mat with run := some r } })).modCur (fun x => x.hang .mtile)

theorem witness_tile_steps :
    ((tiled (tile false 0)).coreAt 0).mat.run = some (tile false 0) ∧
    (tiled (tile false 0)).translationHeld ((tiled (tile false 0)).taskAt 0).asid = false ∧ (tile false 0).grouped = false ∧
    (tile false 0).ready = false ∧ (tiled (tile false 0)).tileStopped (tile false 0) = false ∧
    (let r := { tile true 0 with part := 2 }
     ((tiled r).coreAt 0).mat.run = some r ∧ r.ready = true ∧ r.step = 0 ∧ 0 < r.kb * (r.ti * r.tj) ∧ r.part = r.tj + 1 ∧
     r.vals = [] ∧ r.grouped = false ∧ (tiled r).translationHeld ((tiled r).taskAt 0).asid = false) ∧
    (let r := tile true 0
     let n := r.kb * (r.ti * r.tj) + (if r.stores then r.ti * r.tj else 0)
     (tile true n).ready = true ∧ (tile true n).grouped = false ∧ (tile true n).slot = some 0 ∧
     (tiled (tile true n)).copiesOf (tile true n).who = [0] ∧ ((tiled (tile true n)).slotAt 0).hold = some .mtile) ∧
    (let x : MatCmd := { matCmd 4 0 0 with copyDone := true }
     ((matrix [x]).coreAt 0).mat.queue.head? = some x ∧ ((matrix [x]).coreAt 0).mat.run = none ∧ x.skipped = false) := by
  decide +kernel

/-- A formed group of cores 0 and 1 whose members wait at `MJOIN`. -/
def pair2 : Group := { gid := 5, job := 0, task := 0, members := [0, 1], gwd := 0, formed := true, doneTiles := [(0, 2), (1, 2)] }
def joining : State :=
  let s : State := matrix [{ matCmd 8 0x10005 0 with id := 1 }]
  let s : State := s.modCore 1 (fun c => { c with mat := { owner := some { task := 0 }, e := [(16, matCfg)], queue := [{ matCmd 8 0x10005 0 with id := 2 }] } })
  { s with groups := [pair2] }

theorem witness_groups :
    joining.groups.find? (fun g => g.formed && g.job == 0 && g.gid == 5) = some pair2 ∧ joining.groups = [pair2] ∧
    pair2.members.Nodup ∧
    (∀ c ∈ pair2.members, joining.joinAtHead c 0 5 = some { matCmd 8 0x10005 0 with id := c + 1 } ∧ (joining.coreAt c).mat.halted = false ∧
      (joining.coreAt c).l1 = [] ∧ (joining.taskAt 0).st ≠ .done ∧
      FMap.get 0 pair2.doneTiles c = FMap.get 0 pair2.doneTiles (pair2.members.headD 0)) ∧
    desk1.groups.find? (fun g => g.formed && g.job == 0 && g.gid == 5) = none ∧
    (∀ e ∈ (matrix []).cores, (matrix []).joinAtHead e.1 0 5 = none ∧ e.2.mat.queue = []) := by decide +kernel

/-- A slot whose gather waits for queues or runs. -/
def gvRun : GvRun := { ra := 0x250000, rb := 0x2000C0, token := 0, queues := 1, cols := 1, row := 0, off := 0 }
def gathering (granted : Bool) (r : GvRun) : State :=
  ((grouped 1).modCur (fun x => x.hang (.gv granted r))).modCluster 0 (fun c => { c with gvWait := if granted then [] else [(0, 0)] })

theorem witness_gathers :
    ((gathering false gvRun).clusterAt 0).gvWait = [(0, 0)] ∧ ((gathering false gvRun).slotAt 0).hold = some (.gv false gvRun) ∧
    (gathering false gvRun).gvUsed 0 + gvRun.queues ≤ 16 ∧
    ((gathering true gvRun).slotAt 0).hold = some (.gv true gvRun) ∧ (gathering true gvRun).translationHeld ((gathering true gvRun).asidOf 0) = false ∧
    ((gathering true gvRun).slotAt 0).gvRows ≤ 1 ∧ (gathering true gvRun).copiesOf ((gathering true gvRun).slotAt 0).who = [0] ∧
    (gathering true gvRun).twin 0 = none := by decide +kernel
theorem witness_chain_ends :
    let s := chained.modCur (fun x => (x.hang (.vchain 4)).setPix 4)
    (s.slotAt 0).hold = some (.vchain 4) ∧ s.translationHeld (s.asidOf 0) = false ∧ chainNel 4 ≤ (s.slotAt 0).startAt ∧
    (s.slotAt 0).stopped = false ∧ s.twin 0 = none := by decide +kernel

/-! ## Copy engines and the transform port -/

/-- The desk with the engine registers of a copy of one row of 64 bytes; e42 and e44 as given. -/
def copying (e42 e44 : Nat) : State :=
  put [(8, 0x100100), (9, 0x200080), (10, 0x200000)] (desk1.modCur (fun x => { x with
    eng := [(41, 63), (42, BitVec.ofNat 64 e42), (44, BitVec.ofNat 64 e44)] }))

theorem witness_copy_commands :
    (copying 0 0).speculative (copying 0 0).cur = false ∧
    fieldAt ((copying 0 0).engNat 42) 12 2 = 0 ∧ (copying 0 0).issuesE [4, 8] 0 255 = true ∧
    (copying 0 0).takesCopy ((copying 0 0).copyCmd 7 0 ((copying 0 0).reg 4) ((copying 0 0).reg 8)) = true ∧
    fieldAt ((copying 0x1000 0).engNat 42) 12 2 ≠ 0 ∧ (copying 0x1000 0).issuesE [4] 0 0 = true ∧
    (copying 0x1000 0).takesCopy ((copying 0x1000 0).copyCmd 7 0 ((copying 0x1000 0).reg 4) 0) = true ∧
    (copying 7 0).takesCopy ((copying 7 0).copyCmd 0 1 ((copying 7 0).reg 4) ((copying 7 0).reg 8)) = true ∧
    (copying 0 0).takesCopy ((copying 0 0).copyCmd 0 2 ((copying 0 0).reg 4) ((copying 0 0).reg 9)) = true ∧
    (copying 0 0).takesCopy ((copying 0 0).copyCmd 0 3 ((copying 0 0).reg 10) ((copying 0 0).reg 9)) = true ∧
    arOp ((copying 0 0x30).engNat 44) ≠ 4 ∧
    (copying 0 0x30).takesCopy ((copying 0 0x30).copyCmd 0 4 ((copying 0 0x30).reg 4) ((copying 0 0x30).reg 8)) = true ∧
    arOp ((copying 0 4).engNat 44) = 4 ∧ (copying 0 4).issuesE [8] 0 0 = true ∧
    (copying 0 4).takesCopy ((copying 0 4).copyCmd 0 4 0 ((copying 0 4).reg 8)) = true := by decide +kernel
theorem witness_tokens :
    desk1.issuesE [] 0 255 = true ∧ desk1.issuesE [3] 8 0 = true ∧ (desk1.reg 3).toNat < 4 ∧
    ((put [(3, 3)] desk1).reg 3).toNat < 4 ∧ desk1.issuesE [1] 0 0 = true ∧ slotEng 46 = true ∧ slotEng 0 = true ∧
    (matrix []).issuesE [1] 0 0 = true ∧ (matrix []).ownsMatrix (matrix []).cur = true ∧ (matrix []).issuesE [] 8 0 = true ∧
    desk1.speculative desk1.cur = false ∧ (matrix []).takesMatrix [3, 3] 0 0 = true ∧
    (matrix []).mtileCode 0 ((matrix []).runOf 0 ((matrix []).reg 3)) false = 0 := by decide +kernel

/-- A copy command with its number, and the desk with it at the head of queue 0 of core 0. -/
def cmdOf (fn e42 e46 : Nat) : Cmd :=
  { id := 9, who := { task := 0 }, core := 0, asid := 0, fn := fn, token := 3, queue := 0, ra := 0x200040, rb := 0x100100,
    eng := [(41, 63), (42, BitVec.ofNat 64 e42), (46, BitVec.ofNat 64 e46)], nbox := 1, prepared := true }
def onQueue (c : Cmd) (bs : List Box) : State :=
  let s : State := desk1.modCore 0 (fun x => { x with queues := [(0, [.cmd 9])], lastCopy := [(0, (9, false))] })
  { s.modDie 0 (fun d => { d with ranges := d.ranges ++ [(5, { placedRange with base := 0x26, limit := 0x26, phys := 3, x := false, dacc := true })] })
    with cmds := [c], boxes := bs }
def boxOf (fn e44 : Nat) (ps : List Piece) (n : Nat) : Box :=
  { id := 20, cmd := 9, who := { task := 0 }, core := 0, asid := 0, fn := fn, num := 0, pieces := ps, e44 := e44,
    data := List.replicate n 5 }
def lmPiece (n : Nat) : Piece := { va := 0x200040, spa := lmKey, off := 0, len := n }

theorem witness_follow :
    let s : State := { (matrix []).modCore 0 (fun x => { x with queues := [(0, [.cmd 9])], lastCopy := [(0, (9, false))] }) with cmds := [cmdOf 0 0 0] }
    s.takesMatrix [3, 3] 0 0 = true ∧ s.mtileCode 0 (s.runOf 0 (s.reg 3)) false = 0 ∧
    FMap.find (s.coreAt 0).lastCopy ((s.reg 3).toNat % 8) = some (9, false) ∧ s.cmds.any (fun y => y.id == 9) = true := by decide +kernel
theorem witness_box_write :
    let s := onQueue (cmdOf 0 0 0) [boxOf 0 0 [lmPiece 4] 4]
    s.findBox 20 = some (boxOf 0 0 [lmPiece 4] 4) ∧ Memory.wf s.mem = true ∧ s.landsOn 0 (lmPiece 4) = true ∧
    (s.home (lmPiece 4).spa).outside = false ∧ (s.home (lmPiece 4).spa).win = .lm ∧
    (s.twinKey (s.home (lmPiece 4).spa).key).isNone = true ∧
    s.findOwn 9 = some (cmdOf 0 0 0) ∧ (cmdOf 0 0 0).fn ≠ 3 ∧ (boxOf 0 0 [lmPiece 4] 4).landed = [] ∧ (lmPiece 4).ecg = 0 ∧ (boxOf 0 0 [lmPiece 4] 4).outcome = 0 ∧
    (boxOf 0 0 [lmPiece 4] 4).dup = false ∧ (FMap.get [] (s.coreAt 0).queues 0).contains (.cmd 9) = true ∧ (s.boxes.filter (fun x => x.id != 20)).any (fun x => x.cmd == 9 && x.num == 0) = false := by
  decide +kernel
theorem witness_directed_owner :
    let b := { boxOf 2 0 [] 0 with src := [lmPiece 64] }
    let s := onQueue (cmdOf 2 0 0) [b]
    s.findBox 20 = some b ∧ s.cutOff b = false ∧ b.src.any (s.pieceWaits false) = false ∧ b.src.all (fun p => s.pieceCode 0 false p == 0) = true ∧
    (let b := { b with num := 1 }
     let t := onQueue { cmdOf 2 0 0 with cut := some 0 } [b]
     t.findBox 20 = some b ∧ t.cutOff b = true) := by decide +kernel
theorem witness_directed_delivery :
    let b := { boxOf 2 0 [] 64 with recip := 0x260000 }
    let c := cmdOf 2 0 0
    let s := onQueue c [b]
    s.findBox 20 = some b ∧ s.findCmd b.cmd = some c ∧
    s.boxes.any (fun x => x.cmd == b.cmd && x.recip == b.recip && (c.fn == 3 || x.item == b.item) && x.num < b.num) = false ∧
    c.stopped.contains (1 + b.item) = false ∧ s.cutOff b = false ∧ fieldAt b.recip 112 4 < 14 ∧ s.translationHeld b.rasid = false ∧
    b.snap = [] ∧ b.landed = [] ∧ (s.boxAway b).isSome = false ∧ s.dieCode (fieldAt b.recip 112 4) = 0 ∧
    (s.dieAt (fieldAt b.recip 112 4)).lost = false ∧ s.pieceTableDue { va := 0x260000, spa := 0x30000, off := 0, len := 64 } = false ∧
    bitAt b.recip 62 = false ∧
    (s.recipSide c b (b.recip % 2 ^ 48) 0).toOption = some ([{ va := 0x260000, spa := 0x30000, off := 0, len := 64 }], none, none) ∧
    s.landsOn 0 { va := 0x260000, spa := 0x30000, off := 0, len := 64 } = true := by decide +kernel
theorem witness_arithmetic :
    let b := boxOf 4 0x30 [lmPiece 4] 4
    let s := onQueue (cmdOf 4 0 0) [b]
    s.findBox 20 = some b ∧ Memory.wf s.mem = true ∧ b.tees = false ∧ s.pieceCode 0 false (lmPiece 4) = 0 ∧ s.landsOn 0 (lmPiece 4) = true ∧
    (arApply b.e44 (s.pieceBytes (lmPiece 4)) (b.dataFor (lmPiece 4))).1.length = (lmPiece 4).len := by decide +kernel
theorem witness_engine :
    (∀ fn ∈ [0, 1, 2, 3, 4],
      let c := cmdOf fn 0 0
      let s := onQueue c []
      FMap.get [] (s.coreAt 0).queues 0 = .cmd 9 :: [] ∧ s.findCmd 9 = some c ∧ c.prepared = true ∧ c.cancelled = false ∧
      (s.taskAt c.who.task).saving = none ∧ (c.set.isNone && s.translationHeld c.asid) = false ∧ c.waits = [] ∧
      c.next < c.nbox ∧ c.next < c.floor + 64 ∧ c.stopped = [] ∧ c.settled = [] ∧ s.boxes = []) ∧
    (let c := cmdOf 0 0 0
     let y := (onQueue c []).modCore 0 (fun x => { x with queues := FMap.set 0 [.cmd 9] x.queues })
     c.isOpen = false ∧
     (match y.makeBox c c.next with
      | .ok b => !b.src.isEmpty && !(b.src.any (y.pieceWaits false)) && !(y.storesInto c b.src) &&
          b.src.all (fun p => y.pieceCode c.asid false p == 0)
      | .error _ => false) = true) := by decide +kernel

/-- A parity update of one byte, and the group that it belongs to. -/
def update : Parity := { id := 30, die := 0, group := 1, p := 0, member := 0, chunk := 2, deltas := [(7, 5)], box := 20 }
def shielded : State :=
  let s : State := desk1.modDie 0 (fun d => { d with ecg := [(1, { mbase := [1, 2, 3], size := 1, valid := true, p := 1, k := 2 })] })
  { s with parity := [update] }

theorem witness_parity : Memory.wf shielded.mem = true ∧ shielded.parity.find? (fun v => v.id == update.id) = some update ∧
    update.deltas = [(7, 5)] ∧ (shielded.home (shielded.chunkSpa 0 1 2 2)).outside = false ∧
    shielded.dieCode (shielded.home (shielded.chunkSpa 0 1 2 2)).die = 0 := by decide +kernel

/-- An ORDERED packet at bank 0, whose context expects the key (0, 0, `n`). -/
def ordered (n seq : Nat) : State :=
  (onQueue (cmdOf 4 0 0) [{ boxOf 4 0x130 [lmPiece 4] 4 with seq := seq }]).modBank 0 (fun k => { k with ctx := [(0, { key := some (0, 0, n) })] })

theorem witness_ordered :
    (∀ n ∈ [0, 1], ∀ q ∈ [0, 1],
      let s := ordered n q
      let b := { boxOf 4 0x130 [lmPiece 4] 4 with seq := q }
      s.findBox 20 = some b ∧ (s.home (lmPiece 4).spa).outside = false ∧ (s.bankAt b.bank).nextOf (arTag b.e44) = some (0, 0, n) ∧
      (s.bankAt b.bank).buf.contains 20 = false ∧ s.openDue b = false ∧ b.pieces.any (fun p => (s.home p.spa).outside) = false ∧ (s.bankAt b.bank).buf.length < 64 ∧
      (s.bufferedIn b.bank (arTag b.e44)).any (fun x => x.id != 20 && x.key == b.key) = false ∧ s.packetWaits b = false ∧
      keyAgainst b.key (0, 0, n) = if q = n then 0 else if n < q then 1 else 2) ∧
    (let s := ordered 0 1
     let b := { boxOf 4 0x130 [lmPiece 4] 4 with seq := 1 }
     let o := { boxOf 4 0x134 [lmPiece 1] 0 with id := 21, cmd := 10 }
     let t : State := { s with boxes := s.boxes ++ [{ b with id := 21 }], agenda := [] }
     let full := s.modBank b.bank (fun k => { k with buf := List.replicate 64 99 })
     ({ s with boxes := s.boxes ++ [o], agenda := [.darithOpenPacket 21] } : State).openDue b = true ∧
     ((t.modBank b.bank (fun k => { k with buf := [21] })).bufferedIn b.bank (arTag b.e44)).any (fun x => x.id != 20 && x.key == b.key) = true ∧
     (full.bankAt b.bank).buf.length = 64 ∧ (full.bankAt b.bank).buf.contains 20 = false ∧
     (full.bufferedIn b.bank (arTag b.e44)).any (fun x => x.id != 20 && x.key == b.key) = false ∧
     ((s.modBank b.bank (fun k => { k with buf := [20] })).bankAt b.bank).buf.contains 20 = true ∧
     (s.modMap 0 (fun e => { e with fenced := true })).dieCode (bankDie 0) ≠ 0) ∧
    (let b := { boxOf 4 0x130 [{ lmPiece 4 with spa := coreWindow 0 2 + 8 }] 4 with seq := 0 }
     let s := (onQueue (cmdOf 4 0 0) [b]).modBank 0 (fun k => { k with ctx := [(0, { key := some (0, 0, 0) })] })
     let lost := s.modDie 0 (fun d => { d with lost := true })
     lost.findBox 20 = some b ∧ lost.packetWaits b = true ∧ lost.dieCode (bankDie 0) = 0 ∧ (lost.dieAt (bankDie 0)).lost = true) ∧
    (let p := { lmPiece 4 with spa := 2 ^ 59 + 2048 * 2 ^ 46 }
     ((onQueue (cmdOf 4 0 0) []).home p.spa).outside = true) ∧
    (ordered 0 0).findOwn 9 = some (cmdOf 4 0 0) ∧ ({ ordered 0 0 with cmds := [] } : State).findOwn 9 = none ∧
    (let s := ordered 0 0
     let b := { boxOf 4 0x130 [lmPiece 4] 4 with seq := 0 }
     ((s.modBank b.bank (fun k => { k with
        buf := k.buf.filter (fun x => x != b.id), ctx := FMap.set (arTag b.e44) { key := some b.nextKey } k.ctx })).applyPacket b).bufferedIn
          b.bank (arTag b.e44) = []) ∧ (ordered 0 0).dieCode (bankDie 0) = 0 := by decide +kernel

/-- A queued task with one input of 64 bytes, whose item is on its way. -/
def fed : State :=
  let s : State := onQueue (cmdOf 0 0x1000 (4 * 2 ^ 32)) [boxOf 0 0 [] 64]
  { s with tasks := s.tasks ++ [{ id := 4, st := .queued, decl := { nin := 1 }, tilesIn := [{ fetch := true, length := 64, addr := 0x200040 }] }] }

theorem witness_item :
    fed.changesDue = false ∧ (boxOf 0 0 [] 64).arrive = none ∧ fed.parity.any (fun u => u.box == 20) = false ∧
    fed.findBox 20 = some (boxOf 0 0 [] 64) ∧ fed.findCmd 9 = some (cmdOf 0 0x1000 (4 * 2 ^ 32)) ∧ (fed.boxAway (boxOf 0 0 [] 64)).isSome = false ∧
    (cmdOf 0 0x1000 (4 * 2 ^ 32)).dkind = 1 ∧ FMap.find (cmdOf 0 0x1000 (4 * 2 ^ 32)).claims 0 = none ∧
    (cmdOf 0 0x1000 (4 * 2 ^ 32)).rows 0 = [(0, 0, 64)] ∧ fed.itemFate 4 1 0 0 64 = .staged ∧
    (match fed.itemFate 4 1 0 0 128, fed.itemFate 5 1 0 0 64 with
      | .refused _, .refused _ => true
      | _, _ => false) = true ∧
    (fed.modTask 4 (fun t => { t with staging := [(0, { item := some (8, []) })] })).itemFate 4 1 0 0 64 = .duplicate := by decide +kernel

/-- A transform descriptor with source, destination and auxiliary stretch in local memory. -/
def descOf (f slot len : Nat) (param : Nat) : Nat :=
  f + slot * 2 ^ 16 + 0x200040 * 2 ^ 64 + 0x200400 * 2 ^ 128 + 0x200800 * 2 ^ 192 + len * 2 ^ 256 + 256 * 2 ^ 288 + param * 2 ^ 320

/-- The port of cluster 0 with one request and its ticket, over local memory with the bytes of a number. -/
def reqOf (d : Nat) : XfmReq := { entry := 2, desc := d, asid := 0, core := 0, id := 40 }
def ported (st : TicketState) (d n : Nat) : State :=
  (desk1.store lmKey (leBytes 64 n)).modCluster 0 (fun c => { c with
    xfm := [reqOf d], tickets := [(2, { gen := 3, who := { task := 0 }, token := 5, st := st })] })

theorem witness_tickets :
    let s := put [(8, 0x200040)] (desk1.store lmKey (leBytes 64 (descOf 0 0 8 0)))
    s.issuesE [8] 9 255 = true ∧ s.xfDescriptor s.cur (s.reg 8).toNat = (0, descOf 0 0 8 0) ∧
    (s.clusterAt 0).xfm.length < 8 ∧ (s.curSlot.token 5).count < 255 ∧ FMap.find (s.clusterAt 0).tickets 15 = none ∧
    s.ticketOf 5 (s.reg 8).toNat = none ∧ s.issuesE [3] 9 0 = true ∧ (s.xfDescriptor s.cur (s.reg 3).toNat).1 ≠ 0 ∧
    8 ≤ ((s.modCluster 0 (fun c => { c with xfm := List.replicate 8 (reqOf 0) })).clusterAt 0).xfm.length ∧
    (∀ i, i < 16 → FMap.find ((s.modCluster 0 (fun c => { c with
      tickets := (List.range 16).map (fun i => (i, ({ gen := 0, who := { task := 0 }, token := 0 } : Ticket))) })).clusterAt 0).tickets i ≠ none) ∧
    (∀ st ∈ [TicketState.queued, .running, .done 7, .faulted 9],
      ((put [(8, 0x32)] (ported st 0 0)).ticketOf 5 0x32).map (fun e => (e.1, e.2.st)) = some (2, st) ∧
      (put [(8, 0x32)] (ported st 0 0)).issuesE [8] 9 0 = true) := by decide +kernel

/-- A slot of 64 bytes that by R242 decodes to 256 equal bytes: one literal 0xAB, 28 copies of nine, one of three. -/
def frcSlot : Nat :=
  0xe002c004002001000800400200100080040020010008004002001000800400200100080040020010008004002001000aad31000003000000020000

theorem witness_transform_requests :
    (∀ d ∈ [descOf 0 0 8 0, descOf 1 64 256 256, descOf 2 64 64 0, descOf 3 16 256 0x3FF0000000000000, descOf 4 16 16 0x3FF0000000000000,
        descOf 5 0 256 0],
      let s := ported .queued d frcSlot
      (s.clusterAt 0).xfm.head? = some (reqOf d) ∧ (reqOf d).after.any s.joinOpen = false ∧ s.translationHeld 0 = false ∧
      xfCheck d = 0 ∧ (1 ≤ xfFunc d → xfCount d = 1) ∧
      ((s.portAt 0 (reqOf d) (xfSrcLen d)).portRead 0 0 (xfSrc d) (xfSrcLen d)).isSome = true ∧
      (∀ n ∈ [xfBlock d, xfSlot d], (s.portAt 0 (reqOf d) n).portFault 0 0 (xfDst d) (xfDstCap d) = 0 ∧
        (s.portAt 0 (reqOf d) n).portFault 0 0 (xfAux d) 256 = 0)) ∧
    (let d := descOf 1 64 512 256
     (reqOf d).next < xfCount d ∧ (reqOf d).next + 1 < xfCount d ∧ { reqOf d with next := 1 }.next + 1 = xfCount d ∧
     (({ reqOf d with next := 1 } : XfmReq).next + 1) * xfSlot d ≤ xfDstCap d) ∧
    [descOf 0 0 8 0, descOf 1 64 256 256, descOf 2 64 64 0, descOf 3 16 256 0, descOf 4 16 16 0, descOf 5 0 256 0].map xfFunc =
      [0, 1, 2, 3, 4, 5] ∧
    xfSlot (descOf 1 64 256 256) ≤ 256 ∧ 256 ≤ xfParam (descOf 1 64 256 256) ∧
    bitAt frcSlot 15 = false ∧ (frcDecode 64 256 frcSlot).toOption = some (List.replicate 256 0xAB) := by decide +kernel
theorem witness_bounded_blocks :
    let d := descOf 3 16 256 0x3FF0000000000000
    (ebEncode (xfFmt d) (xfSlot d) (fp64.finite (xfParam d)) (elemsOf (xfElemBytes d) (xfElems d) (List.replicate 256 0))).isSome = true ∧
    (ebDecode (xfFmt d) (xfElemBytes d) (xfSlot d) (xfElems d) (fp64.finite (xfParam d)) 0).toOption = some (List.replicate 256 0) ∧
    ((ported .queued d 0).portAt 0 (reqOf d) (xfBlock d)).portRead 0 0 (xfSrc d) 256 = some (List.replicate 256 0) := by decide +kernel

/-! ## Tasks, domains, pairs, commits and policies -/

/-- A task of job 1 with levels, and the machine that it runs in: its partition, job and rind domain. -/
def worker : Task := { placedTask with levels := [1, 2, 3], diemask := 0xFFF, job := 1, chain := [0] }
def office (t : Task) (energy : Nat) : State :=
  let s : State := desk1.modPart 0 (fun p => { p with
    cfg := { energy := energy, qcount := 4, enable := true, diemask := 0xFFF, used := { qcount := 4, diemask := 0xFFF } }, pquota := 4096, pol := { p.pol with taskswap := true } })
  let s : State := s.modDie 0 (fun d => { d with asids := [(0, { taskrc := true })] })
  { s with tasks := [t], jobs := [{ num := 1, asid := 0, part := 0 }], domains := [{ id := 0, job := 1 }] }

/-- A declaration of one slot, one fetched input of 64 bytes and 10 units of energy, with its tile list at 0x20_0080. -/
def declWord (slots : Nat) : Nat :=
  0x100000 + 0x100000 * 2 ^ 64 + 2 ^ 112 + 0x200080 * 2 ^ 128 + 2 ^ 176 + slots * 2 ^ 192 + 2 ^ 205 + 10 * 2 ^ 384
def tileWord : Nat := 0x200040 + 64 * 2 ^ 64 + 2 ^ 107
def spawning (slots energy : Nat) : State :=
  (((office worker energy).modPart 0 (fun p => { p with seq := 5 })).store lmKey (leBytes 64 (declWord slots))).store (lmKey + 0x40)
    (leBytes 16 tileWord)

theorem witness_spawn :
    (∀ x ∈ [(1, 1000, 0), (1, 9, 0), (0, 1000, 2)],
      let s := spawning x.1 x.2.1
      s.issuesHead [4] 8 = true ∧ s.boundTask s.cur = some worker ∧ (s.reg 4).toNat % 64 = 0 ∧
      gave (s.readBlock s.cur (s.reg 4) 8) = some (declWord x.1) ∧
      (let s1 := left (s.readBlock s.cur (s.reg 4) 8) s
       let g := s1.readTiles s.cur (declOf (declWord x.1))
       gave g = some tileWord ∧
       (let s2 := left g s
        s2.cur = s.cur ∧ s2.speculative s.cur = false ∧ worker.st ≠ .speculative ∧
        s2.declCheck (worker.creator 0) (declWord x.1) (tilesOf tileWord 1) = x.2.2 ∧
        (s2.partAt 0).cfg.energy = x.2.1 ∧ s2.liveTasks 0 < 4096 ∧ s2.pkg.triggers.length < 1024 ∧ s2.allClean = true ∧ s2.postsLeft (fun _ _ => true) = false ∧
        (s2.partAt 0).seq % 2 ^ 26 = 5 ∧ s2.findTask 5 = none))) ∧
    (declOf (declWord 1)).energy = 10 ∧ (declOf (declWord 1)).kind ≠ 2 := by decide +kernel
/-- The worker in two slots of core 0; the second has ended or not. -/
def twoSlots (ended : Bool) : State := (office worker 0).setSlot 1 { bind := some { task := 0, j := 1 }, ended := ended }

theorem witness_done :
    (∀ e ∈ [true, false], (twoSlots e).boundTask 0 = some worker ∧ (twoSlots e).twin 0 = none ∧
      ((twoSlots e).coreAt 0).journal.all (fun j => j.2.slot != 0) = true ∧ (twoSlots e).slotsOf 0 = [0, 1] ∧
      ((twoSlots e).slotAt 1).ended = e) ∧ (office worker 0).slotsOf 0 = [0] := by decide +kernel

/-- A domain descriptor with one COPY preserve, which stands at 0x20_0080. -/
def domainWord (id : Nat) : Nat := 0x100000 + id * 2 ^ 48 + 2 ^ 64 + 0x200080 * 2 ^ 128 + 2 ^ 176
def presWord : Nat := 0x200100 + 2 ^ 64
def opening (id : Nat) : State :=
  put [(8, 0x200080), (9, 7), (10, 0x10000)]
    (((office worker 0).store lmKey (leBytes 64 (domainWord id))).store (lmKey + 0x40) (leBytes 16 presWord))

theorem witness_domain_open :
    (∀ x ∈ [(7, 0), (0, 1)],
      let s := opening x.1
      s.issuesHead [4] 3 = true ∧ s.issuesHead [8] 3 = true ∧ s.boundTask s.cur = some worker ∧ (s.reg 4).toNat % 64 = 0 ∧
      gave (s.readBlock s.cur (s.reg 4) 8) = some (domainWord x.1) ∧
      (let s1 := left (s.readBlock s.cur (s.reg 4) 8) s
       gave (s1.readPres s.cur 0x200080 1) = some presWord ∧
       (let s2 := left (s1.readPres s.cur 0x200080 1) s
        s2.cur = s.cur ∧ (s2.boundTask s.cur).map (·.id) = some 0 ∧ s2.openCheck s.cur (domainWord x.1) [presWord] = x.2 ∧
        s2.presBad s.cur [presWord] = none))) := by decide +kernel
theorem witness_preserve :
    let s := opening 7
    gave (s.readPres s.cur (s.reg 8).toNat 1) = some presWord ∧ [presWord].any (fun e => presReserved e || presLen e == 0) = false ∧
    (left (s.readPres s.cur (s.reg 8).toNat 1) s).presCheck s.cur [presWord] = 0 ∧
    (left (s.readPres s.cur (s.reg 8).toNat 1) s).presBad s.cur [presWord] = none ∧
    (gave (s.readPres s.cur (s.reg 4).toNat 1)).map (fun l => (tilesOf l 1).any (fun e => presReserved e || presLen e == 0)) = some true := by
  decide +kernel
theorem witness_domain_close :
    let y : Domain := { id := 7, job := 1, level := 1, code := 2, opener := some 0, parent := some 0 }
    let t : Task := { worker with chain := [7, 0] }
    let s : State := { put [(9, 7), (10, 0x10000)] (office t 0) with domains := [{ id := 0, job := 1 }, y] }
    s.issuesHead [9] 3 = true ∧ s.boundTask s.cur = some t ∧ (s.reg 9).toNat < 2 ^ 16 ∧ t.chain.head? = some (s.reg 9).toNat ∧
    s.findDomain t.job 7 = some y ∧ y.opener = some t.id ∧ s.findJob t.job = some { num := 1, asid := 0, part := 0 } ∧
    s.membersLeft t.job 7 = false ∧ s.allClean = true ∧ s.postsLeft (fun _ _ => true) = false ∧ 2 ≤ y.code ∧
    2 ^ 16 ≤ (s.reg 10).toNat ∧ (s.reg 3).toNat < 2 ^ 16 ∧ t.chain.head? ≠ some (s.reg 3).toNat := by decide +kernel

/-- The worker as both copies of a checked pair, the partner on core 4. -/
def paired : State :=
  ((office { worker with paired := true } 0).setSlot 64 { bind := some { task := 0, secondary := true } }).modCore 0 (fun c =>
    { c with pairWith := some 0 })

theorem witness_pairs :
    (office worker 0).issuesHead [] 3 = true ∧ (office worker 0).boundTask 0 = some worker ∧ worker.paired = false ∧
    (office worker 0).pairStatus 0 = 0 ∧
    (office { worker with decl := { worker.decl with gang := 2 } } 0).pairStatus 0 ≠ 0 ∧
    1 < ({ worker with decl := { worker.decl with gang := 2 } } : Task).decl.gang ∧
    paired.issuesHead [] 3 = true ∧ paired.boundTask 0 = some { worker with paired := true } ∧ paired.curSlot.who.secondary = false ∧
    (paired.coreAt (paired.pairCore 0)).items.takeWhile (fun i => i.j != 0) = [] ∧ paired.slotsOf 0 = [0, 64] ∧
    (paired.slotAt 64).who.secondary = true := by decide +kernel

/-- A range entry with all rights, and one whose limit lies below its base. -/
def rangeWord (base limit : Nat) : Nat := base + limit * 2 ^ 64 + 5 * 2 ^ 104 + 2 ^ 161 + 7 * 2 ^ 162
def committing (w : Nat) : State := (office worker 0).store lmKey (leBytes 64 w)

theorem witness_commit :
    (∀ x ∈ [(0x30, 0x31, 0), (0x31, 0x30, 2)],
      let s := committing (rangeWord x.1 x.2.1)
      s.issuesHead [4] 3 = true ∧ (s.reg 4).toNat % 32 = 0 ∧ gave (s.readBlock s.cur (s.reg 4) 4) = some (rangeWord x.1 x.2.1) ∧
      (let s1 := left (s.readBlock s.cur (s.reg 4) 4) s
       (s1.asidCtl (dieOfSlot s.cur) (s.asidOf s.cur)).taskrc = true ∧
       (s1.checkImage (entriesIn (rangeWord x.1 x.2.1) 1)).1 = x.2.2 ∧ s1.pkg.commits = [])) ∧
    gave (desk1.readBlock desk1.cur (desk1.reg 4) 4) = some 0 ∧
    (desk1.asidCtl (dieOfSlot desk1.cur) (desk1.asidOf desk1.cur)).taskrc = false ∧ desk1.issuesHead [4] 3 = true := by decide +kernel
theorem witness_policy_swap :
    (∀ x ∈ [(0xF000, none), (0x0000, some 0)],
      let s := committing x.1
      gave (s.readBlock s.cur (s.reg 4) 1) = some x.1 ∧
      (let s1 := left (s.readBlock s.cur (s.reg 4) 1) s
       (s1.partAt 0).pol.pending = false ∧ (s1.partAt 0).pol.taskswap = true ∧ firstBad (bytecodesOf x.1 1) = x.2 ∧
       bitAt (s1.partAt 0).cfg.diemask 0 = true)) ∧
    (desk1.partAt 0).pol.pending = false ∧ (desk1.partAt 0).pol.taskswap = false ∧
    (((committing 0).modPart 0 (fun p => { p with pol := { p.pol with pending := true } })).partAt 0).pol.pending = true := by
  decide +kernel

/-! ## Events of memory and of the scheduler -/

/-- The desk with a handler, two pending traps and one message; slot 0 is held by it or runs on. -/
def msgOf (kind : MsgKind) (spa : Nat) (st : MsgState) (marking : Bool) : Msg :=
  { id := 5, slot := 0, core := 0, asid := 0, kind := kind, va := 0x200040, spa := spa, width := 8, data := 77, reg := 8,
    marking := marking, who := { task := 0 }, st := st }
def trap1 : PendingTrap := { cause := 0x18, tval := 3, stamp := 4 }
def trap2 : PendingTrap := { cause := 0x19, tval := 2, stamp := 1 }
def mailed (m : Msg) (held : Bool) : State :=
  let s : State := (armed false false 0).modCur (fun x => { x with
    pend := [trap1, trap2], hold := if held then some (.msg 5) else none })
  { s with msgs := [m] }
def regSpa (r : Nat) : Nat := coreWindow 0 1 + 8 * r

theorem witness_async_trap :
    let s := mailed (msgOf .read lmKey .sent false) false
    (s.slotAt 0).intrap = false ∧ s.canTakeTrap 0 = true ∧ (s.slotAt 0).pend = trap1 :: [trap2] ∧
    (lowestStamp trap1 [trap2]).cause ≠ 0x21 ∧ (s.slotAt 0).csr.tvec ≠ 0 := by decide +kernel
theorem witness_arrivals :
    (∀ spa ∈ [lmKey, regSpa 0, regSpa 31, coreWindow 0 2 + 8, 0x40],
      let m := msgOf .write spa .sent false
      let s := mailed m false
      s.findMsg 5 = some m ∧ m.st = .sent ∧ (s.home m.spa).outside = false ∧ s.dieCode (s.home m.spa).die = 0 ∧
      (s.dieAt (s.home m.spa).die).lost = false ∧ m.holds (s.isFull (s.home m.spa).key) = true ∧ s.lostChunk m.spa = none ∧
      s.unrecoverable m.spa = false ∧ s.badFor m (s.home m.spa).key = false) ∧
    (mailed (msgOf .write (regSpa 31) .sent false) false).home (regSpa 31) =
      { outside := false, die := 0, win := .reg, cluster := 0, core := 0, off := 248, key := regSpa 31 } ∧
    (let s := mailed (msgOf .write (regSpa 31) .sent false) false
     let h := s.home (regSpa 31)
     (h.regNum, h.regSlot) = (31, 0) ∧ (s.slotAt h.regSlot).bind = some { task := 0 } ∧ s.mayReach 0 (s.asidOf h.regSlot) h.die = true ∧
     (s.slotAt h.regSlot).windowBusy h.regNum = false ∧ (s.home (regSpa 0)).regNum = 0 ∧ (s.slotAt h.regSlot).hold ≠ some .halt ∧
     ((s.modSlot 0 (fun x => x.hang .halt)).slotAt h.regSlot).hold = some .halt ∧
     ((s.modSlot 0 (fun x => x.hang .halt)).slotAt h.regSlot).windowBusy h.regNum = false) ∧
    (desk1.home (coreWindow 0 2 + 8)).win = .tbl ∧ desk1.tableDue 0 = false ∧
    ({ desk1 with agenda := [.mcbtExecute 0] } : State).tableDue 0 = true ∧ (desk1.home lmKey).win = .lm ∧ (desk1.home 0x40).win = .dram := by decide +kernel
/-- A DRAM word whose blocks the key of index 3 holds (04_placement R88: ENC = 1 encrypts under key KEY). -/
def sealed (m : Msg) : State := { mailed m false with mem := [(0x40, 9)] }.modPkg (fun p => { p with ciphers := [(4, 4)] })

theorem test_same_key_reads_back :
    let m := msgOf .read (0x40 + 2 ^ 64 * 4) .sent false
    ((sealed m).perform m 0x40).2.1 = 9 ∧ { placedRange with enc := true, key := 3 }.spa (placedRange.base * 65536 + 5) =
      placedRange.phys * 65536 + 5 + 2 ^ 64 * 4 := by decide +kernel
theorem witness_encrypted_write :
    let m := msgOf .write (0x40 + 2 ^ 64 * 4) .sent false
    let s := sealed m
    let h := s.home m.spa
    m.kind = .write ∧ Memory.wf s.mem = true ∧ (s.twinKey h.key).isNone = true ∧ h.win = .dram ∧ h.outside = false ∧ h.cipher = 4 ∧
      h.key = 0x40 ∧ (∀ a ∈ [0x40, 0x47], FMap.get 0 (s.perform m h.key).1.pkg.ciphers (a / 16) = 4) := by decide +kernel

/-- An acquire over every address whose object has been acquired, with a dirty line whose die has been fenced. -/
def acquiring : State :=
  let s : State := (coded [] [{ line0 true with line := mkSpa 1 0 0 / 32 }]).modMap 1 (fun e => { e with fenced := true })
  { s.modCur (fun x => x.hang (.msg 5)) with msgs := [msgOf (.acq true true) lmKey (.replied 6 0) false] }

theorem witness_acquire_left :
    acquiring.findMsg 5 = some (msgOf (.acq true true) lmKey (.replied 6 0) false) ∧
    (acquiring.dropMsg 5).acquireLeft (msgOf (.acq true true) lmKey (.replied 6 0) false) = true := by decide +kernel
theorem witness_replies :
    (∀ k ∈ [true, false], let m := msgOf .read 0 (.replied 6 0) k
      ((mailed m (!k)).dropMsg 5).acquireLeft m = false) ∧
    (mailed (msgOf .read 0 (.replied 6 0) true) false).findMsg 5 = some (msgOf .read 0 (.replied 6 0) true) ∧
    (mailed (msgOf .read 0 (.replied 6 0) true) false).copiesOf { task := 0 } = [0] ∧ (8 : Fin 32) ≠ 0 ∧
    (mailed (msgOf .read 0 (.replied 6 0) false) true).findMsg 5 = some (msgOf .read 0 (.replied 6 0) false) ∧
    ((mailed (msgOf .read 0 (.replied 6 0) false) true).slotAt 0).hold = some (.msg 5) ∧
    (mailed (msgOf .read 0 (.refused 4) false) true).findMsg 5 = some (msgOf .read 0 (.refused 4) false) ∧
    ((mailed (msgOf .read 0 (.refused 4) false) true).slotAt 0).hold = some (.msg 5) := by decide +kernel

/-- The desk with a posted store in entry 63 of the journal. -/
def entry : JEntry := { slot := 0, va := 0x220000, width := 8, data := 1, fill := false }
def posted : State := desk1.modCore 0 (fun c => { c with journal := [(63, entry)] })

theorem witness_journal : FMap.find (posted.coreAt 0).journal 63 = some entry ∧ posted.findTask entry.who.task = some placedTask ∧
    (posted.slotAt entry.slot).bind = some entry.who ∧ (posted.slotAt entry.slot).ended = false ∧
    posted.copiesOf entry.who = [entry.slot] := by decide +kernel

/-- A dirty line, and write-backs of the lines 0 and 1 of core 0 under way. -/
def dirtyLine (refused : Bool) : L1Line :=
  { line := 0, bytes := leBytes 32 7, dirty := true :: List.replicate 31 false, refused := refused }
def backing (held : Bool) : State :=
  let s : State := (desk1.modCore 0 (fun c => { c with l1 := [dirtyLine true] })).modCur (fun x => { x with
    hold := if held then some .writeback else none })
  { s with wbs := [{ id := 6, core := 0, line := 0, bytes := leBytes 32 7, mask := true :: List.replicate 31 false,
                     slot := if held then some 0 else none }] }

theorem witness_caches :
    ((cached.coreAt 0).findL 0).isSome = true ∧ (desk1.coreAt 0).findL 0 = none ∧ desk1.lostChunk 0 = none ∧ desk1.heldLine 0 = false ∧
    desk1.fillAnswer 0 0 = some (0, List.replicate 32 0) ∧ ((desk1.dropFill 0 0).makeRoom 0 0).isSome = true ∧ (desk1.home 0).outside = false ∧
    (let s := desk1.modDie 0 (fun d => { d with lost := true })
     (s.coreAt 0).findL 0 = none ∧ s.lostChunk 0 = none ∧ s.heldLine 0 = true) ∧
    (let away := (2 ^ 59 + 2048 * 2 ^ 46) / 32
     (desk1.coreAt 0).findL away = none ∧ desk1.lostChunk (away * 32) = none ∧ desk1.heldLine away = false ∧ desk1.fillAnswer 0 away = none) ∧
    (let s := desk1.modCore 0 (fun c => { c with l1 := [0, 128, 256, 384].map (fun n => { line0 true with line := n, refused := true }) })
     (s.coreAt 0).findL 512 = none ∧ s.lostChunk (512 * 32) = none ∧ s.heldLine 512 = false ∧
     s.fillAnswer 0 512 = some (0, List.replicate 32 0) ∧ (s.dropFill 0 512).makeRoom 0 512 = none) ∧
    (let s := shielded.modRebuild (fun r => { r with due := [{ group := 1, chunk := 0, members := [0] }] })
     (s.coreAt 0).findL 8 = none ∧ s.lostChunk (8 * 32) = some (1, 0)) ∧
    desk1.translate (dieOfCore 0) 0 0x100000 32 = some (placedRange, 0) ∧ placedRange.x = true ∧ desk1.lostHome (desk1.home 0) = false ∧ (desk1.home 0).win = .dram ∧
    desk1.readLine 0 = (0, List.replicate 32 0) ∧
    ((desk1.modCluster 0 (fun q => { q with merges := [{ block := 3, lines := [(12, .l1Fill 0 96)] }] })).clusterAt 0).merges.find?
      (fun m => m.block == 3) = some { block := 3, lines := [(12, .l1Fill 0 96)] } := by decide +kernel
theorem witness_write_backs :
    (backing true).wbs.find? (fun w => w.id == 6) = (backing true).wbs.head? ∧
    ((backing true).wbs.head?.map (·.slot)) = some (some 0) ∧ ((backing true).slotAt 0).hold = some .writeback ∧
    ((backing true).wbs.filter (fun w => w.id != 6)).any (fun w => w.slot == some 0) = false ∧
    ((backing false).wbs.head?.map (·.slot)) = some none ∧ (1 : BitVec 7) ≠ 0 ∧
    ((backing false).coreAt 0).l1.filter (fun l => l.refused && l.isDirty) = [dirtyLine true] ∧
    (backing false).heldLine (dirtyLine true).line = false ∧
    ((backing false).modDie 0 (fun d => { d with lost := true })).heldLine (dirtyLine true).line = true := by decide +kernel

/-- The office with a posed decision, a staged policy and a slice. -/
def deciding (k : DecKind) (t : Task) : State :=
  let s : State := (office t 0).modDie 0 (fun d => { d with
    decisions := [{ kind := k, part := 0, core := 0, task := 0, fcode := 1 }], parts := [(0, { shadow := some (2, [0xF000], true), version := 0 })] })
  s.modPart 0 (fun p => { p with pol := { p.pol with image := 0x40 } })

theorem witness_boundaries :
    (office worker 0).liveDies.contains 0 = true ∧ ((office worker 0).dieAt 0).lost = false ∧ (office worker 0).tasks ≠ [] ∧
    State.reset.tasks = [] ∧ State.reset.liveDies.contains 11 = true ∧ (State.reset.dieAt 11).lost = false := by decide +kernel
theorem witness_decisions :
    (∀ k ∈ [DecKind.dispatch, .preempt, .fault],
      let s := deciding k { worker with st := .rolledBack }
      let d : Decision := { kind := k, part := 0, core := 0, task := 0, fcode := 1 }
      let running : Decision := { kind := .preempt, part := 1, run := some { due := 5 } }
      let busy := s.modDie 0 (fun x => { x with decisions := x.decisions ++ List.replicate 16 running })
      s.dieCode 0 = 0 ∧ (s.dieAt 0).lost = false ∧ s.inFlight 0 0 = false ∧ s.firstDecision 0 0 = some d ∧
      s.findTask d.task = some { worker with st := .rolledBack } ∧
      (s.dieAt 0).decisions.countP (fun e => e.run.isSome) < sequencers ∧ (s.partDie 0 0).version = 0 ∧
      busy.inFlight 0 0 = false ∧ busy.firstDecision 0 0 = some d ∧ sequencers ≤ (busy.dieAt 0).decisions.countP (fun e => e.run.isSome)) ∧
    (∀ k ∈ [DecKind.dispatch, .preempt, .fault], ∀ now ∈ [4, 5],
      let r : DecRun := { due := 5, task := some 0 }
      let d : Decision := { kind := k, part := 0, core := 0, task := 0, fcode := 1, run := some r }
      let s : State := { (deciding k { worker with st := .rolledBack }).modDie 0 (fun x => { x with decisions := [d] }) with now := now }
      s.dieCode 0 = 0 ∧ (s.dieAt 0).lost = false ∧ (s.dieAt 0).decisions.find? (fun e => e.part == 0 && e.run.isSome) = some d ∧
      (k ≠ .fault → ((s.modDie 0 (fun x => { x with decisions := x.decisions.erase d })).carryOut d 0 r).isNone = true)) ∧
    (let s := (deciding .dispatch { worker with st := .ready }).setSlot 1 { owner := some (0, 0) }
     ((s.modDie 0 (fun x => { x with decisions := [] })).decidingCore 0 0).isSome = true) ∧
    (let t := { worker with st := .rolledBack }
     (deciding .fault t).findTask 0 = some t ∧ t.discarded = false ∧ t.endCode = 0 ∧ t.fretry = 0 ∧ 1 ≠ FaultClass.gangLate.code ∧
     ({ t with fretry := 1 } : Task).fretry ≠ 0) := by decide +kernel
theorem witness_policies :
    (let s : State := (deciding .dispatch worker).store 0x40 (leBytes 2 0xF000)
     (s.partAt 0).pol.pending = false ∧ (s.partAt 0).pol.image % 8 = 0 ∧
     s.imageWaits (s.partAt 0).pol.image (2 * ((s.partAt 0).pol.imglen + 1)) = false ∧
     (s.modDie 0 (fun d => { d with lost := true })).imageWaits (s.partAt 0).pol.image (2 * ((s.partAt 0).pol.imglen + 1)) = true ∧
     s.imageAt (s.partAt 0).pol.image (2 * ((s.partAt 0).pol.imglen + 1)) = some (leBytes 2 0xF000) ∧
     firstBad (bytecodesOf (leNat (leBytes 2 0xF000)) 1) = none ∧ bitAt (s.partAt 0).cfg.diemask 0 = true) ∧
    ((deciding .dispatch worker).partDie 0 0).shadow = some (2, [0xF000], true) ∧ (deciding .dispatch worker).inFlight 0 0 = false ∧
    ((deciding .dispatch worker).modDie 0 (fun d => { d with decisions := [{ kind := .preempt, part := 0, run := some { due := 5 } }] })).inFlight
      0 0 = true := by decide +kernel

/-- A gang of two packages whose slice is due at 100 ns, at a system time. -/
def slice (x : Slice) (t : Task) (now : Nat) : State :=
  let s : State := (office t 0).modPart 0 (fun p => { p with pol := { p.pol with gslice := 10 } })
  let s : State := s.setSlot 0 {}
  { s.modPkg (fun p => { p with slices := [x] }) with now := now }
def slice0 : Slice := { task := 0, home := 0, start := 100, packages := [(0, 0, 2), (1, 2, 2)], gslice := 10000 }
def gang (st : TaskState) : Task :=
  { worker with st := st, cores := [(0, 0), (1, 1)], levels := [5], decl := { worker.decl with gang := 4 } }

theorem witness_slices :
    (∀ st ∈ [TaskState.preempted, .ready, .placed, .running], ∀ now ∈ [99, 100, 100000],
      (slice slice0 (gang st) now).findSlice 0 = some slice0 ∧ (slice slice0 (gang st) now).findTask 0 = some (gang st)) ∧
    slice0.started = false ∧ slice0.cancelled = false ∧ slice0.bound = false ∧ slice0.start ≤ 100 ∧ 99 < slice0.start ∧
    100 < slice0.start + slice0.grace ∧ slice0.start + slice0.grace ≤ 100000 ∧
    (slice slice0 (gang .placed) 100).sliceFree (gang .placed) = true ∧
    (slice slice0 (gang .running) 100).sliceFree (gang .running) = false ∧
    slice0.gslice ≠ 0 ∧ slice0.start + slice0.gslice ≤ 100000 ∧ 100 < slice0.start + slice0.gslice ∧
    slice0.home = (slice slice0 (gang .placed) 0).fabric.coord ∧
    ({ slice0 with bound := true, packages := [(0, 0, 2)] } : Slice).packages.all (fun p => p.1 == (slice slice0 (gang .placed) 0).fabric.coord) = true := by
  decide +kernel
theorem witness_slice_saves :
    let t : Task := { gang .preempted with saves := [{ j := 0, m := 0, core := 0, slot := {} }] }
    (slice slice0 t 100).findSlice 0 = some slice0 ∧ (slice slice0 t 100).findTask 0 = some t ∧ t.st = .preempted ∧ t.saves ≠ [] := by
  decide +kernel
theorem witness_slice_request :
    (∀ st ∈ [TaskState.placed, .preempted],
      let t := { gang st with cores := [] }
      let s := slice slice0 t 0
      let mine := slice0.mine s.fabric.coord
      let cores := fun (t : Task) => ((s.instanceList t).filter (fun c => (s.coreAt c).work.length < 64 && !s.coreHeld c)).take mine.2
      s.findSlice 0 = some slice0 ∧ s.findTask 0 = some t ∧ t.saves = [] ∧ (cores t).length = mine.2 ∧
      (cores { t with diemask := 0 }).length ≠ mine.2) ∧
    (gang .running).st ≠ .placed ∧ (gang .running).st ≠ .preempted := by decide +kernel

/-! ## Launch, commits of ranges, and the fabric -/

/-- The office with a ring of 16 records at 0x1000, whose record 0 waits, and the address space owned by the partition. -/
def ringed (energy : Nat) (held : Bool) (h d : Nat) : State :=
  let s : State := (spawning 1 energy).modPart 0 (fun p => { p with cfg := { p.cfg with
    lqbase := 0x1000, lqsize := 4, lqtail := 1, held := held } })
  let s : State := s.modDie 0 (fun x => { x with asids := [(0, { owned := true })] })
  (s.store 0x1000 (leBytes 128 h)).store 0x1080 (leBytes 64 d)
/-- A header: three levels 3, 2, 1, job 1, the one block, and a version; HOLD where it asks to wait. -/
def header (version : Nat) (hold : Bool) : Nat :=
  (if hold then 2 ^ 81 else 0) + 3 * 2 ^ 82 + 2 ^ 86 + 2 ^ 118 + version * 2 ^ 120 + (3 + 2 * 8 + 1 * 64) * 2 ^ 128
/-- What the record `y` holds at `a` comes to in `s`: its code, 1000 to hold, 1001 and the blocks to accept. -/
def parsed (y s : State) (a : Nat) : Nat :=
  match y.askSpa a 256 with
  | .ok bs =>
    match s.parseRecord 0 (leNat bs % 2 ^ 1024) [fieldAt (leNat bs) 1024 512, fieldAt (leNat bs) 1536 512] with
    | .refuse c => c
    | .hold => 1000
    | .unread c => 3000 + c
    | .accept l => 1001 + l.length
  | .error c => 2000 + c

theorem witness_doorbell :
    (∀ p ∈ [({} : PartCfg), { enable := true, lqsize := 4 }], ((office worker 0).modCfg 0 (fun _ => p)).xdieUp 12 = true ∧ p.stalled = false) ∧
    ({ enable := true, lqsize := 4 } : PartCfg).ringOk = true ∧ (16 + 65536 - 0) % 65536 ≤ 2 ^ 4 ∧ 2 ^ 4 < (17 + 65536 - 0) % 65536 ∧
    ({} : PartCfg).ringOk = false := by decide +kernel
theorem witness_admission :
    (∀ x ∈ [(header 2 false, 1000, false, 1), (header 1 false, 9, false, 7), (header 1 true, 9, false, 1000), (header 1 true, 9, true, 1000),
            (header 1 false, 1000, false, 1002), (header 2 false, 1000, true, 1002)],
      let s' := ringed x.2.1 x.2.2.1 x.1 (declWord 1)
      let y := s'.readCfg 0
      let p := (y.partAt 0).cfg
      let a := p.recordNow
      p.lqhead ≠ p.lqtail ∧ p.ringOk = true ∧ p.held = x.2.2.1 ∧ s'.energyDue 0 = false ∧ (y.home a).win = .dram ∧
      (if p.held then some y else y.writeState a 0 1).isSome = true ∧
      (let z := ((if p.held then some y else y.writeState a 0 1).getD y).modCfg 0 (fun p => { p with recAt := some a })
       parsed y z a = x.2.2.2 ∧ (z.writeState a 1 4).isSome = true ∧ (z.writeState a 0 2).isSome = true ∧
       (z.writeState a 0 3).isSome = true)) ∧
    ((ringed 0 false 0 0).push (.enadd 0 5)).energyDue 0 = true := by decide +kernel
theorem witness_unread_records :
    (let s := { ringed 1000 false (header 1 false) (declWord 1 - 0x200080 * 2 ^ 128 + 0x220080 * 2 ^ 128) with agenda := [] }
     let z := (s.readCfg 0).modMap 1 (fun e => { e with fenced := true })
     3000 < parsed z z 0x1000) ∧
    (let s := (ringed 1000 false 0 0).modCfg 0 (fun p => { p with lqbase := mkSpa 1 0 0 })
     let y := (s.modMap 1 (fun e => { e with fenced := true })).readCfg 0
     (y.home (mkSpa 1 0 0)).win = .dram ∧ 2000 < parsed y y (mkSpa 1 0 0)) := by decide +kernel
theorem witness_queue_sum :
    (office worker 0).pkg.status.ready = true ∧ ((office worker 0).modCfg 0 (fun p => { p with qcount := 31 % 32 })).queueSum ≤ 256 ∧
    (let s : State := { office worker 0 with parts := (List.range 17).map (fun n => (n, { cfg := { qcount := 16, enable := true } })) }
     256 < (s.modCfg 16 (fun p => { p with qcount := 16 % 32 })).queueSum) ∧
    (let s := (office worker 0).modPart 0 (fun p => { p with pol := { p.pol with pending := true } })
     (s.partAt 0).pol.pending = true ∧ (s.modCfg 0 (fun p => { p with qcount := 32 % 32 })).queueSum ≤ 256) := by decide +kernel
theorem witness_staging :
    (let t := { worker with st := .queued }
     (office t 0).findTask 0 = some t ∧ t.decl.nin = 0 ∧ t.parked = false) ∧
    (let tile : Tile := { fetch := true, length := 16, addr := 0x100010 }
     let t : Task := { worker with st := .queued, decl := { worker.decl with nin := 1 }, tilesIn := [tile], staging := [(0, {})] }
     (office t 0).findTask 0 = some t ∧ 0 < t.decl.nin ∧ t.tilesIn[0]? = some tile ∧ (t.staged 0).resident = false ∧
     (∀ a ∈ [0x40, coreWindow 0 1], (({ t with staging := [(0, { spa := some a })] } : Task).staged 0).spa = some a) ∧
     (office t 0).stagingKey 0x40 = some 0x40 ∧ (office t 0).stagingKey (coreWindow 0 1) = none ∧
     (office t 0).translationHeld t.asid = false ∧ ((office t 0).askVa (dieOfCore t.point) t.asid tile.addr tile.length).toOption = some (List.replicate 16 0)) := by decide +kernel

/-- The range commit block of X-die 12 with an image of one entry, and a commit of address space 0 under way. -/
def hosting (image : Nat) (w : Nat) : State :=
  let s : State := (office worker 0).store 0x2000 (leBytes 32 w)
  s.modRangeBlock 12 (fun b => { b with image := image })
def draining (c : Commit) (m : List Msg) : State :=
  let s : State := (office worker 0).modSlot 0 (fun x => { x with hold := some .commit })
  { s.modPkg (fun p => { p with commits := [c] }) with msgs := m }

theorem witness_range_commits :
    (∀ x ∈ [(coreWindow 0 1, 0, none), (0x2000, rangeWord 0x30 0x31, some 0), (0x2000, rangeWord 0x31 0x30, some 2)],
      let s := hosting x.1 x.2.1
      let b := s.rangeBlock 12
      b.busy = false ∧ b.image % 32 = 0 ∧ s.imageWaits b.image (32 * (b.nm1 + 1)) = false ∧
      (s.imageAt b.image (32 * (b.nm1 + 1))).map (fun bs => (s.checkImage (entriesIn (leNat bs) (b.nm1 + 1))).1) = x.2.2) ∧
    (let c : Commit := { asid := 0, set := [] }
     (draining c []).pkg.commits = [c] ∧ c.reported.contains 0 = false ∧ c.switchAt = none ∧ (draining c []).undrained 0 0 = false ∧
     (draining c [msgOf .read lmKey .sent false]).undrained 0 0 = true ∧
     (draining c []).liveDies.all ((List.range 11).tail ++ [11] ++ [0]).contains = true ∧ (draining c []).liveDies.all [0].contains = false) ∧
    (let c : Commit := { asid := 0, set := [placedRange], host := some 12, slot := some (0, 3), switchAt := some 5 }
     (draining c []).pkg.commits = [c] ∧ c.set.length ≤ 64 ∧ ((draining c []).slotAt 0).hold = some .commit) ∧
    (let s := ((hosting 0x2000 0).modDie 0 (fun d => { d with lost := true })).modRangeBlock 12 (fun b => { b with busy := true, reading := true })
     (s.rangeBlock 12).reading = true ∧ (s.rangeBlock 12).image % 32 = 0 ∧ s.imageWaits 0x2000 32 = true) := by decide +kernel

/-- A fabric of 4 by 2 by 4 by 4 packages, the links of ports 0 and 2 in a state, with a packet. -/
def meshed (l : Link) (p : List Packet) (now : Nat) : State :=
  let s : State := mailed (msgOf .read lmKey .sent false) false
  let s : State := s.modFabric (fun f => { f with
    nc := 4, nd := 4, links := [0, 1, 2, 3, 8, 9, 10, 11].map (fun n => (n, l)), packets := p })
  { s with now := now }
def upLink : Link := { st := .up, live := 15, width := 0 }
def parcel (dst : Nat) : Packet := { id := 3, load := .msg 5, dst := dst, die := 0 }

theorem witness_routing :
    (∀ x ∈ [(0, Route.deliver), (2048, .port 0), (4096, .port 0), (1, .detour 2 1), (3, .detour 2 1)],
      let s := meshed upLink [parcel x.1] 0
      s.findPacket 3 = some (parcel x.1) ∧ s.portKept (parcel x.1) = none ∧ s.packetLive (parcel x.1) = true ∧ s.target (parcel x.1) = x.1 ∧
      s.route (parcel x.1) x.1 = x.2) ∧
    ((meshed upLink [parcel 2048] 0).modFabric (fun f => { f with fence := [(63, 0x8800)] })).fencedPkg 2048 = true ∧
    (let p := { parcel 2048 with port := some 0 }
     (meshed upLink [p] 0).findPacket 3 = some p ∧ (meshed upLink [p] 0).packetLive p = true ∧
     (meshed upLink [p] 0).portKept p = some 0) ∧
    (let p := { parcel 2048 with sent := true, link := some 0, limit := 100 }
     (meshed upLink [p] 100).findPacket 3 = some p ∧ (meshed upLink [p] 100).packetLive p = true ∧ p.start + p.limit ≤ (meshed upLink [p] 100).now ∧
     p.link.any (fun n => ((meshed upLink [p] 100).link n).st == .paused || ((meshed upLink [p] 100).link n).st == .training) = false) := by
  decide +kernel
theorem witness_links :
    (∀ l ∈ [upLink, { upLink with st := .paused }, { upLink with st := .training }, { upLink with st := .down }],
      (meshed l [] 0).linkHere 0 3 = true ∧ ((meshed l [] 0).link 3).st = l.st) ∧
    (meshed upLink [] 0).laneUsed 3 3 = true ∧ 15 &&& (15 - 2 ^ 3) ≠ 0 ∧
    (let one : Link := { st := .up, live := 1, width := 2 }
     (meshed one [] 0).laneUsed 3 3 = false ∧ (meshed one [] 0).laneUsed 3 0 = true ∧ 1 &&& (15 - 2 ^ 0) = 0) ∧
    ((meshed { upLink with st := .paused, trainAt := some 9 } [] 0).link 3).trainAt.isSome = true ∧ (meshed upLink [] 0).retryBuffer 3 = [] ∧
    (∀ n ∈ [3, 16],
      let p := { parcel 2048 with sent := true, link := some 3, acked := 50, resends := n }
      (meshed upLink [p] 0).retryBuffer 3 = [p] ∧ (meshed upLink [p] 0).resends 3 = n) ∧
    (meshed { upLink with resends := 16 } [] 0).resends 3 = 16 ∧ (meshed upLink [] 0).xdieUp 13 = true := by decide +kernel
theorem witness_router_clock :
    (let s := (meshed upLink [] 0).modFabric (fun f => { f with rclkHeld := [(12, 2)] })
     FMap.find s.fabric.rclkHeld 12 = some 2 ∧ s.widthDue 12 = false ∧ (s.push (.retrain 0 0)).widthDue 12 = true ∧ (s.link 0).trainAt = none ∧
     (linksOfXdie 12).any (fun n => (s.link n).st == .paused || (s.link n).st == .training ||
        ((s.link n).marked && (s.link n).st == .up && (s.link n).upSince.any (fun u => decide (s.now < u + 10000)))) = false ∧
     (linksOfXdie 12).contains 0 = true ∧ (s.link 0).st = .up) ∧
    (let s := (meshed upLink [] 0).modFabric (fun f => { f with rclkApplying := [(12, true)] })
     FMap.get false s.fabric.rclkApplying 12 = true ∧ (linksOfXdie 12).all (fun n => (s.link n).st != .paused) = true) ∧
    (let s := ((meshed upLink [] 0).modFabric (fun f => { f with rclkApplying := [(12, true)] })).modLink 1 (fun l => { l with st := .paused })
     (linksOfXdie 12).filter (fun n => (s.link n).st == .paused) = [1] ∧ (s.link 1).trainAt = none ∧ (s.link 1).want = false ∧ (s.link 1).full = false ∧
     ((s.modLink 1 (fun l => { l with trainAt := some 9 })).link 1).trainAt.isSome = true ∧
     ((s.modLink 1 (fun l => { l with live := 0 })).link 1).live = 0 ∧
     ((s.modLink 1 (fun l => { l with want := true })).link 1).want = true ∧ (s.link 1).live ≠ 0 ∧
     ((s.modLink 1 (fun l => { l with want := true, full := true })).link 1).full = true) := by decide +kernel
theorem witness_trainings :
    (∀ full ∈ [true, false], let s := meshed { upLink with st := .training, full := full } [] 0
      s.linkHere 0 3 = true ∧ (s.link 3).st = .training ∧ (s.link 3).full = full ∧ (s.link 3).live &&& (15 - 2 ^ 3) ≠ 0) ∧
    ((meshed { upLink with st := .training, live := 8 } [] 0).link 3).live &&& (15 - 2 ^ 3) = 0 ∧
    (meshed { st := .down } [] 0).linkHere 0 3 = true ∧ ((meshed { st := .down } [] 0).link 3).trained = false ∧
    (meshed upLink [] 0).linkHere 0 3 = true ∧ ((meshed upLink [] 0).link 3).st ≠ .training ∧ ((meshed upLink [] 0).link 3).st ≠ .down ∧
    ((meshed { upLink with upSince := some 5 } [] 9000).link 3).upSince = some 5 ∧
    ((meshed upLink [] 9000).link 3).upSince = none := by decide +kernel

/-! ## Pre-emption and recovery -/

/-- The office with a second, PREEMPTED task whose area takes a number of lanes. -/
def crowded (lanes room : Nat) (st : TaskState) : State :=
  let t : Task := { worker with id := 9, st := st, saves := [{ j := 0, m := 0, core := 0, slot := {}, lanes := lanes }] }
  let s : State := (office worker 0).modPart 0 (fun p => { p with cfg := { p.cfg with used := { p.cfg.used with stagesize := room } } })
  { s with tasks := [worker, t] }

theorem witness_preemption :
    (∀ x ∈ [(0, true), (40000, false)],
      (((crowded x.1 0 .preempted).taskAt 0).st = .running ∧ ((crowded x.1 0 .preempted).taskAt 0).saving = none ∧
       ((crowded x.1 0 .preempted).withStoreRoom 0).storeFits 0 = x.2)) ∧
    (let s : State := office { worker with saving := some .plain } 0
     (s.taskAt 0).saving = some .plain ∧
     (let y := (s.slotsOf 0).foldl (fun (s : State) k => (s.pairResultOf k).settleSlot k) s
      (y.slotsOf 0).all y.slotSettled = true ∧ (y.withStoreRoom 0).storeFits 0 = true)) ∧
    (let s : State := (office { worker with saving := some .plain } 0).modSlot 0 (fun x => { x with hold := some .writeback })
     let y := (s.slotsOf 0).foldl (fun (s : State) k => (s.pairResultOf k).settleSlot k) s
     (y.slotsOf 0).all y.slotSettled = false) ∧
    (∀ x ∈ [(1, true), (0, false)],
      let r := (crowded 8 x.1 .preempted).liftAreas 9
      ((crowded 8 x.1 .preempted).taskAt 9).st = .preempted ∧ ((crowded 8 x.1 .preempted).taskAt 9).pinned = false ∧
      (r.swapPlaces (r.taskAt 9)).isSome = x.2) ∧
    (let a : SaveArea := { j := 0, m := 0, core := 0, slot := {}, pinned := true }
     ({ worker with parked := true, saves := [a] } : Task).pinned = true) ∧
    (List.range 12).all (fun d => ((crowded 8 1 .swapped).taskAt 9).savedOn d = 0 ||
      (crowded 8 1 .swapped).storeTaken 9 d + ((crowded 8 1 .swapped).taskAt 9).savedOn d ≤ contextStore) = true ∧
    ((crowded 8 1 .swapped).taskAt 9).pinned = false ∧
    ((crowded 8 1 .swapped).taskAt 9).st = .swapped := by decide +kernel
theorem witness_retirement :
    (let s := crowded 8 1 .committed
     let t := s.taskAt 9
     s.findTask 9 = some t ∧ t.st = .committed ∧ s.energyWriteDue t.part = false ∧ (s.releaseTask t).releaseLeft t = false ∧
     (s.push (.enadd 0 5)).energyWriteDue t.part = true) ∧
    (let t : Task := { worker with st := .committed, launch := some (0, 0), cores := [(0, 0)] }
     let s := (office t 0).modCore 0 (fun c => { c with l1 := [{ line0 true with line := mkSpa 1 0 0 / 32 }] })
     let s := s.modMap 1 (fun e => { e with fenced := true })
     s.findTask 0 = some t ∧ s.energyWriteDue t.part = false ∧ (s.releaseTask t).releaseLeft t = true) ∧
    (let t : Task := { worker with st := .done }
     (office t 0).findTask 0 = some t ∧ (office t 0).energyWriteDue t.part = false ∧ t.discarded = false ∧ t.endCode = 0) := by
  decide +kernel

/-- The pair with the two items of its slot index. -/
def itemed (w : Nat) (now : Nat) : State :=
  let s : State := (paired.modCore 0 (fun c => { c with items :=
    [{ j := 0, secondary := false, word := 5, operands := [1], before := {}, since := 0 },
     { j := 0, secondary := true, word := w, operands := [1], before := {}, since := 0 }] })).modSlot 0 (fun x =>
      { x with hold := some .pairItem })
  { s with now := now }

theorem witness_pair_items :
    (∀ w ∈ [5, 6], ((itemed w 0).primaryCore 0) = some 0 ∧
      ((itemed w 0).coreAt 0).items.filter (fun i => i.j == 0 && !i.matched) = ((itemed w 0).coreAt 0).items ∧
      ((itemed w 0).coreAt 0).items.length = 2) ∧
    (itemed 5 0).slotsOf 0 = [0, 64] ∧ ((itemed 5 0).slotAt 0).who.j = 0 ∧ ((itemed 5 0).slotAt 0).who.secondary = false ∧
    ((itemed 5 0).slotAt 0).hold = some .pairItem ∧
    ((itemed 5 (acNs 65536)).taskAt 0).st.begun = true ∧ ((itemed 5 (acNs 65536)).taskAt 0).saving = none ∧
    (itemed 5 (acNs 65536)).pairPaused 0 0 = false ∧
    ((itemed 5 (acNs 65536)).modDie 0 (fun d => { d with lost := true })).pairPaused 0 0 = true ∧
    ((itemed 5 (acNs 65536)).coreAt 0).items.any (fun i => i.j == 0 && !i.matched && i.since + acNs 65536 ≤ (itemed 5 (acNs 65536)).now) = true := by
  decide +kernel
theorem witness_restore :
    let p : Preserve := { lock := false, spa := 0x40, len := 64, bytes := [(0x41, 9)] }
    let d : Domain := { id := 7, job := 1, restoring := true, preserves := [p] }
    let s : State := { office worker 0 with domains := [{ id := 0, job := 1 }, d] }
    s.findDomain 1 7 = some d ∧ d.faulted = none ∧ d.preserves.any (fun p => !p.lock && (s.dieCode (s.home p.spa).die != 0 || (s.dieAt (s.home p.spa).die).lost)) = false ∧
    Memory.wf s.mem = true ∧ (s.home p.spa).outside = false ∧ Memory.wf p.bytes = true ∧ p.group = 0 ∧
    p.bytes.all (fun b => (s.home p.spa).key ≤ b.1 && b.1 < (s.home p.spa).key + p.len) = true ∧
    (let f : DomainFault := { fcode := 3, element := 0, cycle := 4 }
     let x : State := { s with domains := [{ id := 0, job := 1 }, { d with faulted := some f }], cycle := 5 }
     x.findDomain 1 7 = some { d with faulted := some f } ∧ f.cycle < x.cycle) := by decide +kernel
theorem witness_soft_errors :
    (office worker 0).boundTask 0 = some worker ∧ worker.st.begun = true ∧
    (office worker 0).domains.any (fun d => d.job == worker.job && d.opener == some worker.id) = false ∧
    (office worker 0).tileOwner ((office worker 0).home 0x40) = none ∧
    (matrix []).tileOwner ((matrix []).home (accBase 0)) = some 0 ∧ ((matrix []).coreAt 0).mat.owner = some { task := 0 } ∧
    ((desk1.modCore 0 (fun c => { c with spec := [{ line := 0, task := 0, bytes := [], mask := [] }] })).coreAt 0).spec.any
      (fun l => l.task == 0) = true ∧
    ((crowded 8 1 .preempted).taskAt 9).saves.any (fun a => a.j == 0) = true ∧
    (∀ b ∈ [true, false],
      let l : L1Line := { dirtyLine false with dirty := List.replicate 32 b }
      ((desk1.modCore 0 (fun c => { c with l1 := [l] })).coreAt 0).findL l.line = some l ∧ l.isDirty = b) := by decide +kernel

/-- A lost die, and a diagnosis at a step. -/
def ill (die : Nat) (missed : Nat) : State := (office worker 0).modDie die (fun d => { d with lost := true, missed := missed })
def diag (step confirms : Nat) : Diagnosis := { id := 4, cls := .die, element := 3, t0 := 0, step := step, confirms := confirms }
def asked (d : Diagnosis) : State := (meshed upLink [] 0).modPkg (fun p => { p with diags := [d] })

theorem witness_heartbeats :
    (ill 11 0).silent 11 = true ∧ (ill 11 0).silent 10 = false ∧ ((ill 11 1).dieAt 11).missed < 2 ∧ 2 ≤ ((ill 11 2).dieAt 11).missed ∧
    ((office worker 0).modFabric (fun f => { f with xdieLost := [(13, true)] })).silent 13 = true ∧
    (office worker 0).pkg.diags.any (fun d => d.cls == .die && d.element == 3) = false ∧
    (∀ x ∈ [(0, 0), (1, 0), (2, 0), (2, 1), (2, 2)], (asked (diag x.1 x.2)).findDiag 4 = some (diag x.1 x.2)) ∧
    (asked (diag 2 0)).needed (diag 2 0) = 2 ∧ (asked (diag 2 0)).neighbours.length = 2 := by decide +kernel
theorem witness_packages :
    (let s := meshed { upLink with st := .down } [] 0
     let ports := (List.range 8).filter (fun p => s.neighbour s.fabric.coord p == some 2048)
     ports ≠ [] ∧ ports.all (fun p => (portLinks p).all (fun n => (s.link n).st == .down)) = true) ∧
    (let s : State := { meshed upLink [] 0 with jobs := [{ num := 1, asid := 0, part := 0, spares := [33] }] }
     let gone := (s.modPkg (fun p => { p with pkgLosses := [(2048, 0)] }))
     let late : State := { gone with now := 1000000 }
     let y := (late.modPkg (fun p => { p with pkgHandled := p.pkgHandled ++ [2048] })).note (.reported 9 2048)
     let tray := fun (s : State) => (s.pkg.pkgLosses ++ [(2048, s.now)]).filter (fun (l : Nat × Nat) => l.1 % 2048 == 0 && decide (s.now ≤ l.2 + 1000000))
     2048 ≠ s.fabric.coord ∧ min 3 (s.neighboursOf 2048) ≤ 3 ∧ 0 < min 3 (s.neighboursOf 2048) ∧
     s.pkg.pkgLosses.find? (fun l => l.1 == 2048) = none ∧ (tray s).length < 4 ∧
     4 ≤ (tray (s.modPkg (fun p => { p with pkgLosses := [(0, 0), (4096, 0), (6144, 0)] }))).length ∧
     gone.pkg.pkgLosses.find? (fun l => l.1 == 2048) = some (2048, 0) ∧ gone.now < 1000000 ∧
     late.pkg.pkgLosses.find? (fun l => l.1 == 2048) = some (2048, 0) ∧ late.pkg.pkgHandled.contains 2048 = false ∧
     late.tasks.all (fun t => !(t.st.begun && wideGang t)) = true ∧ FMap.find late.pkg.voteBy 2048 = none ∧
     y.nearest 2048 ((y.listedFor []).filter (fun p => p != 2048 && p != y.fabric.coord && y.inShape p && !y.fencedPkg p &&
       !y.pkgTaken p && (List.range 14).all (fun n => !y.physUsed p n))) = some 33) := by decide +kernel
theorem witness_die_loss :
    Config.isComputeDie 3 = true ∧ (office worker 0).liveDies.contains 3 = true ∧ ((office worker 0).mapAt 3).remote = false ∧
    ((office worker 0).dieAt 3).lost = false ∧
    (let s := (office worker 0).modMap 3 (fun e => { e with fenced := true })
     (s.mapAt 3).fenced = true ∧ s.pkg.localSpares.find? (fun q => (q < 9) == decide (3 < 8)) = some 8 ∧
     s.jobs.all (fun j => !j.wants.contains 3) = true) ∧
    (office worker 0).markLost.nextStripe = none ∧
    (let s := shielded.modRebuild (fun r => { r with due := [{ group := 1, chunk := 0, members := [0] }] })
     s.markLost.nextStripe = some { group := 1, chunk := 0, members := [0] } ∧
     s.markLost.deadSurvivors { group := 1, chunk := 0, members := [0] } = []) := by decide +kernel
theorem witness_scheduler_commands :
    (∀ t ∈ [{ worker with parked := true, st := .rolledBack }, { worker with parked := true, st := .preempted },
            { worker with st := .preempted, saves := [{ j := 0, m := 0, core := 0, slot := {} }] }], (office t 0).findTask 0 = some t) ∧
    (office worker 0).findTask 1 = none ∧ ((office worker 0).schedBlock 12).taskid = 0 ∧ 0 < worker.decl.slots ∧
    (∀ p ∈ [none, some 0x10040],
      let a : SaveArea := { j := 0, m := 0, core := 0, slot := {}, spa := p }
      let t : Task := { worker with st := .swapped, saves := [a] }
      (office t 0).findTask 0 = some t ∧ ((office t 0).schedBlock 12).slot = 0 ∧ t.saves.find? (fun x => x.j == 0) = some a ∧ a.spa = p) ∧
    (let j : Job := { num := 0, asid := 0, part := 0, spares := [3] }
     let s : State := { meshed upLink [] 0 with jobs := [j] }
     s.findJob (s.schedBlock 12).job = some j ∧ j.part = (s.schedBlock 12).part ∧ j.spares.length < 16 ∧ s.inShape 3 = true ∧
     j.spares.contains 3 = true) := by decide +kernel
theorem witness_control_space :
    (office worker 0).pkg.status.ready = true ∧ (office worker 0).dieCode 0 = 0 ∧ (office worker 0).xdieUp 12 = true ∧
    ((office worker 0).dieAt 0).lost = false ∧
    (let s := (office worker 0).modPkg (fun p => { p with status := { p.status with ready := false, step := 4 } })
     s.pkg.status.ready = false ∧ s.pkg.status.step = 4 ∧ s.timers.any (fun t => t.ev == .lcsChange 2) = false ∧
     (s.after 5 (.lcsChange 2)).timers.any (fun t => t.ev == .lcsChange 2) = true) ∧
    ((office worker 0).schedBlock 12).busy = false ∧ bitAt (0x103 : Nat) 8 = true ∧
    (((office worker 0).modSched 12 (fun b => { b with busy := true })).schedBlock 12).busy = true ∧
    ((office worker 0).modPkg (fun p => { p with status := { p.status with ready := false } })).pkg.status.ready = false ∧
    ((office worker 0).rangeBlock 12).busy = false ∧
    (((office worker 0).modRangeBlock 12 (fun b => { b with busy := true })).rangeBlock 12).busy = true ∧
    (office worker 0).liveDies.contains 0 = true ∧ min (office worker 0).pkg.power.pbudget 4400 < 5000 := by decide +kernel

/-! ## The machine -/

/-- The desk with an ADD at pc, in DRAM and in the instruction cache. -/
def stepping : State := put [(1, 7), (2, 5)] (State.reset.withFetchWord 32 0x04611000)

theorem witness_step :
    stepping.agenda = [] ∧ stepping.pkg.poweredOff = false ∧ stepping.canRun stepping.cur = true ∧ stepping.curSlot.hold = none ∧
    stepping.curSlot.reissue = false ∧ stepping.curSlot.yielding = 0 ∧ stepping.curSlot.pend = [] ∧ stepping.curSlot.intrap = false ∧
    stepping.translationHeld (stepping.asidOf stepping.cur) = false ∧ stepping.twin stepping.cur = none ∧
    (stepping.curSlot.blocked && stepping.speculative stepping.cur) = false ∧ headOnly (.add 3 1 2 false false) = false ∧
    stepping.publishGate (.add 3 1 2 false false) = none ∧ headOnly (.fence 0) = true ∧
    ((stepping.modCore 0 (fun c => { c with spec := [{ line := 0, task := 0, bytes := [], mask := [] }] })).publishGate (.fence 0)).isSome = true ∧
    stepping.fetch stepping.cur = .word 0x04611000 ∧ decode 0x04611000 = some (.add 3 1 2 false false) ∧
    (State.reset.withFetchWord 32 0).fetch 0 = .word 0 ∧ decode 0 = none ∧
    stepping.fetchSpa stepping.cur stepping.curSlot.pc = some 0 ∧ (stepping.home 0).win = .dram ∧
    ((stepping.coreAt 0).findI 0 (0x100000 / 32)).any (fun l => !l.refetch.contains 0) = true ∧
    Memory.wf stepping.mem = true := by decide +kernel
theorem witness_power :
    ((office worker 0).modPkg (fun p => { p with poweredOff := true })).pkg.poweredOff = true ∧
    (office worker 0).agenda = [] ∧ isPowerGood (.powerGood 0 true true) = true ∧ isPowerGood .packagePowerRemoved = false := by decide +kernel
theorem test_step_adds :
    (∃ t, step stepping = .next t ∧ (t.slotAt 0).reg 3 = 12 ∧ (t.slotAt 0).pc = 0x100004) := by
  refine ⟨_, rfl, ?_⟩
  decide +kernel

/-! ## Words of the opcode map (05_encoding Tables 5-1 to 5-9, R101 to R121), with every field filled in -/

/-- Each word decodes to its instruction, which is encoded as the word. -/
def reads (l : List (Nat × Instr)) : Bool := l.all (fun e => decodeTableWord 32 e.1 == some e.2 && encode e.2 == some e.1)

theorem test_words_add_to_or : reads [
    (0x06329A00, .add 17 18 19 false true), (0x06329A01, .sub 17 18 19 false true),
    (0x06329A02, .mul 17 18 19 false true), (0x06329A03, .mulh 17 18 19 false true),
    (0x06329A04, .mulhu 17 18 19 false true), (0x06329A05, .div 17 18 19 false true),
    (0x06329A06, .divu 17 18 19 false true), (0x06329A07, .rem 17 18 19 false true),
    (0x06329A08, .remu 17 18 19 false true), (0x06329A09, .and 17 18 19 false true),
    (0x06329A0A, .or 17 18 19 false true)] = true := by decide +kernel
theorem test_words_xor_to_slt : reads [
    (0x06329A0B, .xor 17 18 19 false true), (0x06329A0C, .andn 17 18 19 false true),
    (0x06329A0D, .sll 17 18 19 false true), (0x06329A0E, .srl 17 18 19 false true),
    (0x06329A0F, .sra 17 18 19 false true), (0x06329A10, .ror 17 18 19 false true),
    (0x06329A11, .min 17 18 19 false true), (0x06329A12, .max 17 18 19 false true),
    (0x06329A13, .minu 17 18 19 false true), (0x06329A14, .maxu 17 18 19 false true),
    (0x06329A15, .slt 17 18 19 false true)] = true := by decide +kernel
theorem test_words_sltu_to_ori : reads [
    (0x06329A16, .sltu 17 18 19 false true), (0x06329A17, .seq 17 18 19 false true),
    (0x06329A18, .sel 17 18 19 false true), (0x06320419, .clz 17 18 true), (0x0632041A, .ctz 17 18 true),
    (0x0632041B, .popc 17 18 true), (0x0632041C, .brev 17 18 true), (0x0632041D, .bswap 17 18 true),
    (0x0A328584, .addi 17 18 true 1412), (0x0A328D84, .andi 17 18 true 1412), (0x0A329584, .ori 17 18 true 1412)] = true := by decide +kernel
theorem test_words_xori_to_bfi : reads [
    (0x0A329D84, .xori 17 18 true 1412), (0x0A32A584, .slti 17 18 true 1412), (0x0A32AD84, .sltiu 17 18 true 1412),
    (0x0A32B030, .slli 17 18 true 48), (0x0A32B830, .srli 17 18 true 48), (0x0A32C030, .srai 17 18 true 48),
    (0x0E360002, .lhi 17 1441794), (0x12360002, .apc 17 1441794), (0x16328149, .bfx 17 18 true 5 9),
    (0x1632A149, .bfxs 17 18 true 5 9), (0x1632C149, .bfi 17 18 true 5 9)] = true := by decide +kernel
theorem test_words_bbinit_to_blt : reads [
    (0x18119400, .bbinit 17 18 true false), (0x1A20006E, .bbget 17 46), (0x1A2000AE, .bbpeek 17 46),
    (0x180000ED, .bbskip 45), (0x18000107, .bbalign 7), (0x1811016F, .bbemit 17 false 47), (0x18000180, .bbflush),
    (0x1A2001C0, .bbtell 17), (0x2232B003, .beq 17 18 45059), (0x2632B003, .bne 17 18 45059),
    (0x2A32B003, .blt 17 18 45059)] = true := by decide +kernel
theorem test_words_bge_to_lws : reads [
    (0x2E32B003, .bge 17 18 45059), (0x3232B003, .bltu 17 18 45059), (0x3632B003, .bgeu 17 18 45059),
    (0x3A360002, .jal 17 1441794), (0x3E328584, .jalr 17 18 true 1412), (0x42328B04, .lb 17 18 true 2820),
    (0x42329B04, .lbs 17 18 true 2820), (0x4232AB04, .lh 17 18 true 2820), (0x4232BB04, .lhs 17 18 true 2820),
    (0x4232CB04, .lw 17 18 true 2820), (0x4232DB04, .lws 17 18 true 2820)] = true := by decide +kernel
theorem test_words_ld_to_amoswap : reads [
    (0x4232EB04, .ld 17 18 true 2820), (0x46328B04, .sb 17 18 true 2820), (0x46329B04, .sh 17 18 true 2820),
    (0x4632AB04, .sw 17 18 true 2820), (0x4632BB04, .sd 17 18 true 2820), (0x4A32AB28, .ldfe 17 18 true 2 357),
    (0x4A32BB29, .sdfe 17 18 true 3 357), (0x4A328B22, .feget 17 18 true 356), (0x4A328B23, .feset 17 18 true 356),
    (0x4E329A00, .amoadd 17 18 19 false true false), (0x4E329A01, .amoswap 17 18 19 false true false)] = true := by decide +kernel
theorem test_words_amocas_to_rst : reads [
    (0x4E329A02, .amocas 17 18 19 false true false), (0x4E329A03, .amoand 17 18 19 false true false),
    (0x4E329A04, .amoor 17 18 19 false true false), (0x4E329A05, .amoxor 17 18 19 false true false),
    (0x4E329A06, .amomin 17 18 19 false true false), (0x4E329A07, .amomax 17 18 19 false true false),
    (0x4E329A08, .amominu 17 18 19 false true false), (0x4E329A09, .amomaxu 17 18 19 false true false),
    (0x4E329A0A, .amofadd 17 18 19 false true false), (0x52320410, .rld 17 18 true 1 0),
    (0x50119482, .rst 17 18 true false 2)] = true := by decide +kernel
theorem test_words_rstfe_to_dpf : reads [
    (0x50119540, .rstfe 17 18 true false 4), (0x52329B86, .ramo 17 18 19 false true false 6),
    (0x56320003, .acq 17 18 3), (0x56321004, .rel 17 18 4), (0x54002002, .fence 2), (0x54003305, .qfence 773),
    (0x56324000, .bind 17 18), (0x58110163, .ipf 17 false 355), (0x5A321964, .ipin 17 18 true 356),
    (0x58112163, .iunpin 17 false 355), (0x58113162, .dpf 17 354)] = true := by decide +kernel
theorem test_words_cwb_to_fmaxm : reads [
    (0x58114162, .cwb 17 354), (0x58115163, .cinv 17 false 355), (0x62329A13, .fadd 17 18 19 false true 2 3),
    (0x62329A33, .fsub 17 18 19 false true 2 3), (0x62329A53, .fmul 17 18 19 false true 2 3),
    (0x62329A73, .fdiv 17 18 19 false true 2 3), (0x62320493, .fsqrt 17 18 true 2 3),
    (0x62329AB0, .fmin 17 18 19 false true 2), (0x62329AD0, .fmax 17 18 19 false true 2),
    (0x62329AF0, .fminm 17 18 19 false true 2), (0x62329B10, .fmaxm 17 18 19 false true 2)] = true := by decide +kernel
theorem test_words_feq_to_fnma : reads [
    (0x62329B30, .feq 17 18 19 false true 2), (0x62329B50, .flt 17 18 19 false true 2),
    (0x62329B70, .fle 17 18 19 false true 2), (0x62320590, .fclass 17 18 true 2),
    (0x62329BB0, .fsgnj 17 18 19 false true 2), (0x62329BD0, .fsgnjn 17 18 19 false true 2),
    (0x62329BF0, .fsgnjx 17 18 19 false true 2), (0x66329D16, .fma 17 18 19 20 true 3),
    (0x66329D36, .fms 17 18 19 20 true 3), (0x66329D17, .fnms 17 18 19 20 true 3),
    (0x66329D37, .fnma 17 18 19 20 true 3)] = true := by decide +kernel
theorem test_words_fcvt_to_fsigm : reads [
    (0x6A32005A, .fcvt 17 18 0 false 1 3 2), (0x6E320410, .fexp2 17 18 true 2), (0x6E320430, .flog2 17 18 true 2),
    (0x6E320450, .fexp 17 18 true 2), (0x6E320470, .fln 17 18 true 2), (0x6E320490, .frcp 17 18 true 2),
    (0x6E3204B0, .frsq 17 18 true 2), (0x6E3204D0, .fsin 17 18 true 2), (0x6E3204F0, .fcos 17 18 true 2),
    (0x6E320510, .ftanh 17 18 true 2), (0x6E320530, .fsigm 17 18 true 2)] = true := by decide +kernel
theorem test_words_ferf_to_vand : reads [
    (0x6E320550, .ferf 17 18 true 2), (0x6C110188, .xclr 17 false), (0x6C1195B0, .xacc 17 18 true false 2),
    (0x6E3205D9, .xrnd 17 18 true 3 1), (0x80642803, .vadd 3 4 5 3), (0x8064280B, .vsub 3 4 5 3),
    (0x80642813, .vmul 3 4 5 3), (0x8064281B, .vfma 3 4 5 3), (0x80642823, .vmin 3 4 5 3), (0x8064282B, .vmax 3 4 5 3),
    (0x80642835, .vand 3 4 5 5)] = true := by decide +kernel
theorem test_words_vor_to_vredmax : reads [
    (0x8064283D, .vor 3 4 5 5), (0x80642845, .vxor 3 4 5 5), (0x8064284D, .vshl 3 4 5 5), (0x80642855, .vshr 3 4 5 5),
    (0x8064285B, .vcmp 3 4 5 3), (0x80642863, .vsel 3 4 5 3), (0x8064286B, .vperm 3 4 5 3), (0x80640073, .vmov 3 4 3),
    (0x8072047B, .vbcst 3 18 true 3), (0x82240083, .vredadd 17 4 3), (0x8224008B, .vredmax 17 4 3)] = true := by decide +kernel
theorem test_words_vredmin_to_vreneg : reads [
    (0x82240093, .vredmin 17 4 3), (0x8064109C, .vcvt 3 4 2 4), (0x806498A0, .vqnt 3 4 19 false),
    (0x822400A8, .vmaxx 17 4), (0x806400B3, .vexp 3 4 3), (0x806400BB, .vln 3 4 3), (0x806400C3, .vrcp 3 4 3),
    (0x806400CB, .vrsq 3 4 3), (0x806400D3, .vtanh 3 4 3), (0x86320400, .vclaim 17 18 true),
    (0x86320401, .vreneg 17 18 true)] = true := by decide +kernel
theorem test_words_vrel_to_mlda : reads [
    (0x84000002, .vrel), (0x84720408, .vld 3 18 true), (0x84729A09, .vlds 3 18 19 false true),
    (0x8472280A, .vgth 3 18 5 false), (0x8472040C, .vst 3 18 true), (0x84729A0D, .vsts 3 18 19 false true),
    (0x8472280E, .vsct 3 18 5 false), (0x84110010, .vchain 17 false), (0x8802C640, .mcfg 177 18),
    (0x8836CA74, .mldb 5 178 19 20), (0x8856CA74, .mlda 5 178 19 20)] = true := by decide +kernel
theorem test_words_mm16_to_sendx : reads [
    (0x8876CA74, .mm16 5 178 19 20), (0x8896CA60, .mtile 5 178 19), (0x88B6CA74, .mzero 5 178 19 20),
    (0x88D6CA74, .mstc 5 178 19 20), (0x88E2C653, .mprog 177 18 19), (0x8916CA60, .mjoin 5 178 19),
    (0x8C16CA74, .mgv 5 178 19 20), (0x8C36CA74, .mgvb 5 178 19 20), (0x8C56CA74, .mcbt 5 178 19 20),
    (0x9016CA74, .send 5 178 19 20), (0x9036CA74, .sendx 5 178 19 20)] = true := by decide +kernel
theorem test_words_dget_to_engr : reads [
    (0x9056CA74, .dget 5 178 19 20), (0x9076CA74, .dgetl 5 178 19 20), (0x9096CA74, .darith 5 178 19 20),
    (0x90B6CA74, .cfollow 5 178 19 20), (0x90D6CA74, .cquery 5 178 19 20), (0x90F6CA60, .ccancel 5 178 19),
    (0x9416CA74, .xreq 5 178 19 20), (0x9436CA74, .xpoll 5 178 19 20), (0x9456CA74, .xres 5 178 19 20),
    (0x98B6CA60, .engw 45 178 19), (0x99B6C813, .engr 45 178 19)] = true := by decide +kernel
theorem test_words_wait_to_spawn : reads [
    (0x9C02C400, .wait 177), (0x9C36CA74, .tokq 5 178 19 20), (0xC0000B01, .svc 2817), (0xC0001B01, .brk 2817),
    (0xC0002000, .eret), (0xC2203020, .csrr 17 32), (0xC2324007, .csrw 17 18 7), (0xC0005B01, .yield 2817),
    (0xC0A06003, .empty 5 3), (0xC0007000, .halt), (0xC6320000, .spawn 17 18)] = true := by decide +kernel
theorem test_words_tdone_to_aswap : reads [
    (0xC4001B01, .tdone 2817), (0xC6322000, .cdopen 17 18), (0xC63230B3, .cdpres 17 18 179),
    (0xC6324000, .cdclose 17 18), (0xC6205000, .pair 17), (0xC6206000, .unpair 17), (0xC632702F, .rcommit 17 18 47),
    (0xC63281B4, .aswap 17 18 true 180)] = true := by decide +kernel

/-- The words of the worked case (05_encoding Table 5-12), and words that the map does not assign. -/
theorem test_words_worked_case : reads [
    (0x48A42010, .ldfe 5 4 false 2 2), (0x04C62A00, .add 6 6 5 false true), (0x08840020, .addi 4 4 false 32),
    (0x2487FFFD, .bne 4 7 65533), (0x9C001400, .wait 5), (0x3C010000, .jalr 0 1 false 0)] = true := by decide +kernel
theorem test_words_unassigned :
    [0, 0xFC000000, 0x1C000000, 0x0400001E, 0x04000100, 0x7C000000, 0xC2203008, 0x8064109A, 0x62329A16, 0x50119550].all (fun w =>
      decodeTableWord 32 w == none) = true ∧ decodeTableWord 16 0x04000000 = none := by decide +kernel

/-! ## Terms that are not well formed, one for each check of WellFormed -/

theorem test_ill_formed : ([
    .bfx 1 2 false 63 1, .bfxs 1 2 false 32 32, .bfi 1 2 false 9 63, .bbalign 2, .ldfe 1 2 false 3 0, .sdfe 1 2 false 1 0,
    .rld 1 2 false 6 0, .rld 1 2 false 1 2, .rstfe 1 2 false false 5, .ramo 1 2 3 false false false 11, .acq 1 2 5, .rel 1 2 7,
    .fence 6, .qfence 0, .qfence 1024, .fadd 1 2 3 false false 0 6, .fsqrt 1 2 false 0 6, .fma 1 2 3 4 false 6] : List Instr).all (fun i =>
      !i.wf && (encode i).bind decode == none) = true := by decide +kernel
theorem test_ill_formed_types : ([
    .fcvt 1 2 0 false 3 3 0, .fcvt 1 2 0 false 6 7 0, .fcvt 1 2 1 false 0 1 0, .fcvt 1 2 0 false 4 0 1, .fcvt 1 2 0 false 0 1 6,
    .xacc 1 2 false false 0, .xrnd 1 2 false 0 0, .xrnd 1 2 false 1 6, .vadd 1 2 3 7, .vfma 1 2 3 4, .vand 1 2 3 3, .vmov 1 2 7,
    .vcvt 1 2 3 3, .vcvt 1 2 4 5, .vexp 1 2 4, .csrr 1 8, .csrw 1 2 0x39, .empty 0 0, .empty 30 2] : List Instr).all (fun i =>
      !i.wf && (encode i).bind decode == none) = true := by decide +kernel
theorem test_ill_formed_events : ([.heartbeat 3, .rangeCommitSwitch, .doorbell 12 0 5, .illegalInstruction 0] : List Instr).all (fun i =>
    !i.wf && (encode i).bind decode == none) = true := by decide +kernel

/-! ## Single steps; the expected values are those of the spec's worked cases, or worked out by hand from the rule cited -/

/-- The state after the instruction of a word. -/
def did (w : Nat) (s : State) : State :=
  match decode w with
  | some i => (match exec i s with
    | .next t => t
    | _ => s)
  | none => s
def flagsOf (s : State) : Nat := s.curSlot.csr.fcsr.toNat / 8 % 32

/-- R143: addition and multiplication modulo 2^64, the high half of an unsigned product. -/
theorem test_add_wraps : (did 0x04611000 (put [(1, 0xFFFFFFFFFFFFFFFF), (2, 1)] desk)).reg 3 = 0 ∧
    (did 0x04611000 (put [(1, 0xFFFFFFFFFFFFFFFF), (2, 1)] desk)).curSlot.pc = 0x100004 := by decide +kernel
theorem test_mulhu : (did 0x04611004 (put [(1, 0xFFFFFFFFFFFFFFFF), (2, 0xFFFFFFFFFFFFFFFF)] desk)).reg 3 = 0xFFFFFFFFFFFFFFFE := by
  decide +kernel
/-- R106, R147: a signed field of 6 bits at position 9, whose sign bit is set. -/
theorem test_bfxs : (did (5 * 2 ^ 26 + 3 * 2 ^ 21 + 18 * 2 ^ 16 + 2 * 2 ^ 12 + 5 * 2 ^ 6 + 9) (put [(18, 0x4000)] desk)).reg 3 = 0xFFFFFFFFFFFFFFE0 := by
  decide +kernel
/-- R190: a signed byte, and a half word without sign, little-endian. -/
theorem test_loads :
    (did (0x10 * 2 ^ 26 + 3 * 2 ^ 21 + 4 * 2 ^ 16 + 1 * 2 ^ 12) (desk1.store lmKey [0x80, 0x91])).reg 3 = 0xFFFFFFFFFFFFFF80 ∧
    (did (0x10 * 2 ^ 26 + 3 * 2 ^ 21 + 4 * 2 ^ 16 + 2 * 2 ^ 12) (desk1.store lmKey [0x80, 0x91])).reg 3 = 0x9180 := by decide +kernel
/-- R141, R190: a half word stored at its address and nowhere else. -/
theorem test_store :
    let t := did (0x11 * 2 ^ 26 + 1 * 2 ^ 21 + 4 * 2 ^ 16 + 1 * 2 ^ 12 + 2) (put [(1, 0x11223344)] desk1)
    t.readBytes (t.home lmKey) 8 = [0, 0, 0x44, 0x33, 0, 0, 0, 0] := by
  decide +kernel

/-- 07_numbers Table 7-7. -/
theorem test_convert_to_tapered : [(0x40533333, 0x5A, 1), (0x447A0000, 0x7E, 1), (0x459C4000, 0x7F, 5), (0xFF800000, 0xFF, 5),
    (0xB99D4952, 0x81, 1), (0xB8D1B717, 0x00, 3), (0x7F800001, 0x80, 16)].all (fun (e : Nat × Nat × Nat) =>
      let t := did 0x68640108 (put [(4, BitVec.ofNat 64 e.1)] desk)
      t.reg 3 == BitVec.ofNat 64 e.2.1 && flagsOf t == e.2.2) = true := by decide +kernel
theorem test_convert_to_t6 : (did 0x68640148 (put [(4, 0x41400000)] desk)).reg 3 = 0x1E ∧
    (did 0x68640140 (put [(4, 0x401C000000000000)] desk)).reg 3 = 0x1E := by decide +kernel
/-- R175: zero times infinity with three addends. -/
theorem test_fma_invalid : [(0xFFC01234, 0xFFC01234), (0x7F800001, 0x7FC00001), (0x3F800000, 0x7FC00000)].all (fun (e : Nat × Nat) =>
    (match exec (.fma 3 5 6 7 true 0) (put [(5, 0), (6, 0x7F800000), (7, BitVec.ofNat 64 e.1)] desk) with
      | .next t => t.reg 3 == BitVec.ofNat 64 e.2 && flagsOf t == 16
      | _ => false)) = true := by decide +kernel

/-- R182, Table 7-10: the third addition, and the rounding. The cell stands at g10. -/
def cell (l : List Byte) : State :=
  (put [(10, 0x200080), (13, 0xF1800000)] desk).store (lmKey + 0x40 + 16) l
theorem test_exact_sum :
    let t := did 0x6C0A69A8 (cell (leBytes 16 (0x200000 + 0x0200000000000000 * 2 ^ 64)))
    t.readBytes (t.home (lmKey + 0x40)) 40 = leBytes 40 (0x200000 * 2 ^ 128) ∧
    (did 0x6DCA01C8 (cell (leBytes 8 0x200000))).reg 14 = 0x3F800000 := by decide +kernel

/-- 08_memory_ops R213: `BBSKIP` of 63 bits, the read of the field that crosses the word, and the place. -/
def reading (b : BitBuf) : State :=
  (desk.store lmKey (leBytes 16 (2 ^ 63 + 2 ^ 64))).modCur (fun x => { x with bb := b })
theorem test_bit_buffer :
    let b := (did 0x180000FE (reading { ptr := 0x200040, lim := 0x200050 })).curSlot.bb
    b.cnt = 65 ∧ b.ptr = 0x200050 ∧
    (did 0x18C00042 (reading { win := BitVec.ofNat 128 3, cnt := 65, ptr := 0x200050, lim := 0x200050 })).reg 6 = 3 ∧
    (did 0x18E001C0 (reading { cnt := 62, ptr := 0x100010 })).reg 7 = 0x1000103E := by decide +kernel

/-- 08_memory_ops R209: a refused store. The entry is 17, the slot s4. -/
def refusedStore : State :=
  let e : JEntry := { slot := 4, va := 0x1380000040, width := 4, data := 0x56789ABC, fill := false, who := { task := 0, j := 4 } }
  (desk.setSlot 4 { bind := some { task := 0, j := 4 }, pc := 0x100000, csr := { tvec := 0x100040 } }).modCore 0 (fun c =>
    { c with journal := [(17, e)] })
theorem test_refused_store :
    (match execPostedStoreRefusal 0 17 2 refusedStore with
     | .next t => (match execAsyncTrapEntry 4 t with
       | .next u => (u.slotAt 4).csr.tval == 0x56789ABC && (u.slotAt 4).csr.tjrn == 0x0013800000404482 && (u.slotAt 4).pc == 0x100040
       | _ => false)
     | _ => false) = true := by decide +kernel

/-- 09_vector Table 9-13: the elements of cluster 16, quantised under 2.75. -/
theorem test_quantise :
    let s := put [(6, 0x40300000)] (desk.modCur (fun x => { x with
      claim := some ⟨8, [0]⟩, eng := [(0, 4), (1, 0x05011000)], vreg := [(128, 0x3F000000), (129, 0xBF300000), (130, 0x3DCCCCCD)] }))
    let t := did 0x804130A0 s
    (List.range 4).map (fun i => (FMap.get 0 t.curSlot.vreg (256 + i)).toNat % 256) = [0x50, 0xD6, 0x2A, 0x00] ∧ flagsOf t = 1 := by
  decide +kernel

/-- 14_fabric R349: the path of the packet to (2, 1, 30, 9). -/
theorem test_routing :
    let p : Packet := { id := 1, load := .msg 0, dst := 0x17C9, die := 0 }
    let s : Nat → State := fun c => State.reset.modFabric (fun f => { f with
      coord := c, nc := 32, nd := 32, links := (List.range 32).map (fun n => (n, { st := .up, live := 15, width := 0 })) })
    let fenced : State := (s 0x049).modFabric (fun f => { f with fence := [(0, 0x8029)] })
    (s 0x067).route p 0x17C9 = .port 6 ∧ (s 0x069).route p 0x17C9 = .port 5 ∧ (s 0x009).neighbour 0x009 5 = some 0x3E9 ∧
    (s 0x3C9).route p 0x17C9 = .port 2 ∧ (s 0x7C9).route p 0x17C9 = .port 0 ∧
    fenced.route p 0x17C9 = .detour 2 1 ∧ (fenced.modFabric (fun f => { f with detours := 0 })).route p 0x17C9 = .refuse := by decide +kernel

/-- 12_copy R322: the parity delta. 03_accord Table 3-12: Policy B's dispatch decision, in 16 cycles. -/
theorem test_parity_delta : gfMul 0x04 0x80 = 0x3A ∧ gfDouble 0x80 = 0x1D := by decide +kernel
def policyB : List Nat :=
  [0xB800, 0x9002, 0x9807, 0x9000, 0xA004, 0xB907, 0xDA23, 0xA001, 0xEA00, 0xF000, 0xB905, 0x8902, 0x98FC, 0x0B03, 0xEB03, 0xF000]
theorem test_policy :
    firstBad policyB = none ∧
    (match Accord.run policyB (fun q f => if f = 3 then (if q = 2 then 900 else if q = 5 then 400 else 0) else 0)
        (fun n => if n = 7 then 0x24 else 0) [] 16 0 [0, 1] 65 {} with
     | .fin x i => x.choice.dqueue == 5 && i == 9 && x.cycles + bcCost 0x1E == 16
     | _ => false) = true := by decide +kernel
/-- 09_vector R240: CRC-32C of "123456789". -/
theorem test_crc : crc32c 0 [0x31, 0x32, 0x33, 0x34, 0x35, 0x36, 0x37, 0x38, 0x39] = 0xE3069283 := by decide +kernel

/-- 16_recovery R390, R392: the opener of domain 7 hangs; it runs on until the boundary, where it is rolled back, the
member of the domain is discarded and rollbackCount is 1. -/
theorem test_rollback_at_boundary :
    (let w : Task := { worker with chain := [7, 0] }
     let s : State := { office w 0 with
       tasks := [w, { worker with id := 2, domain := 7, chain := [7, 0] }],
       domains := [{ id := 0, job := 1 }, { id := 7, job := 1, opener := some 0, parent := some 0 }] }
     match exec (.watchdogFire 0) s with
     | .next x =>
       (x.taskAt 0).st == .running && x.timers.any (fun t => t.ev == .domainRestoreComplete 1 7) && x.membersLeft 1 7 &&
       (match exec (.domainRestoreComplete 1 7) { x with cycle := x.cycle + 16 } with
        | .next y => (y.taskAt 0).st == .rolledBack && (y.taskAt 0).lastFault == 3 && (y.taskAt 2).discarded &&
            (y.findDomain 1 7).any (fun d => d.rollbacks == 1 && d.restoring && d.faulted.isNone)
        | _ => false)
     | _ => false) = true := by decide +kernel

end Tests
end Sys2Proof
end

/-!
PROOF. The scalar division, service, breakpoint and trap-return instructions (06_scalar R144, R152, R153), on what a
trap leaves of the slot that it enters (15_interrupts R363, R365).
-/
namespace Sys2Proof
namespace Machine

/-! ## What a trap leaves of the slot that it enters -/

theorem State.modSlots_slotAt_keeps {α : Type} (π : Slot → α) (f : Slot → Slot) (hf : ∀ x, π (f x) = π x)
    (s : State) (ks : List Nat) (k : Nat) : π ((s.modSlots ks f).slotAt k) = π (s.slotAt k) := by
  induction ks generalizing s with
  | nil => rfl
  | cons j ks ih =>
    have hj : π ((s.modSlot j f).slotAt k) = π (s.slotAt k) := by
      rw [State.slotAt_modSlot]
      split
      next h => rw [h, hf]
      next => rfl
    exact (ih (s.modSlot j f)).trans hj

@[simp] theorem State.modSlots_cur (s : State) (ks : List Nat) (f : Slot → Slot) : (s.modSlots ks f).cur = s.cur := by
  induction ks generalizing s with
  | nil => rfl
  | cons k ks ih => exact ih (s.modSlot k f)

@[simp] theorem State.saveLater_slotAt (s : State) (id k : Nat) : (s.saveLater id).slotAt k = s.slotAt k := by
  unfold State.saveLater
  split <;> rfl

@[simp] theorem State.saveLater_cur (s : State) (id : Nat) : (s.saveLater id).cur = s.cur := by
  unfold State.saveLater
  split <;> rfl

/-- Stopping a task reaches its slots in `stopped` and `yielding` only. -/
theorem State.stopTask_slotAt_keeps {α : Type} (π : Slot → α)
    (hπ : ∀ x : Slot, π { x with stopped := true, yielding := 0 } = π x) (s : State) (id : Nat) (e : SaveEnd) (k : Nat) :
    π ((s.stopTask id e).slotAt k) = π (s.slotAt k) := by
  rw [State.stopTask, State.saveLater_slotAt]
  exact State.modSlots_slotAt_keeps π _ hπ s (s.slotsOf id) k

@[simp] theorem State.stopTask_slotAt_csr (s : State) (id : Nat) (e : SaveEnd) (k : Nat) :
    ((s.stopTask id e).slotAt k).csr = (s.slotAt k).csr := s.stopTask_slotAt_keeps Slot.csr (fun _ => rfl) id e k

@[simp] theorem State.stopTask_slotAt_g (s : State) (id : Nat) (e : SaveEnd) (k : Nat) :
    ((s.stopTask id e).slotAt k).g = (s.slotAt k).g := s.stopTask_slotAt_keeps Slot.g (fun _ => rfl) id e k

@[simp] theorem State.stopTask_cur (s : State) (id : Nat) (e : SaveEnd) : (s.stopTask id e).cur = s.cur := by
  simp [State.stopTask]

/-- With a handler or without one, a trap writes the trap registers, and beyond them it can only set INTRAP. -/
theorem State.enterTrap_csr_cases (s : State) (k cause : Nat) (asyn : Bool) (p v : Word) :
    ((s.enterTrap k cause asyn p v).slotAt k).csr = ((s.slotAt k).withTrap cause asyn p v).csr ∨
    ((s.enterTrap k cause asyn p v).slotAt k).csr = (((s.slotAt k).withTrap cause asyn p v).setIntrap true).csr := by
  unfold State.enterTrap
  dsimp only
  split
  next => right; simp [Slot.setIntrap]
  next =>
    split
    next => left; simp
    next => right; simp [Slot.setIntrap]

@[simp] theorem State.enterTrap_tpc (s : State) (k cause : Nat) (asyn : Bool) (p v : Word) :
    ((s.enterTrap k cause asyn p v).slotAt k).csr.tpc = p := by
  rcases s.enterTrap_csr_cases k cause asyn p v with h | h <;> rw [h] <;> rfl

@[simp] theorem State.enterTrap_tval (s : State) (k cause : Nat) (asyn : Bool) (p v : Word) :
    ((s.enterTrap k cause asyn p v).slotAt k).csr.tval = v := by
  rcases s.enterTrap_csr_cases k cause asyn p v with h | h <;> rw [h] <;> rfl

/-- A trap taken inside a handler leaves the slot in its handler. -/
theorem State.enterTrap_intrap (s : State) (k cause : Nat) (asyn : Bool) (p v : Word)
    (h : (s.slotAt k).intrap = true) : ((s.enterTrap k cause asyn p v).slotAt k).intrap = true := by
  simp only [Slot.intrap] at h ⊢
  rcases s.enterTrap_csr_cases k cause asyn p v with hc | hc <;> rw [hc] <;> simp [Slot.setIntrap, Slot.withTrap, h]

@[simp] theorem State.enterTrap_g (s : State) (k cause : Nat) (asyn : Bool) (p v : Word) :
    ((s.enterTrap k cause asyn p v).slotAt k).g = (s.slotAt k).g := by
  unfold State.enterTrap
  dsimp only
  split
  next => simp
  next => split <;> simp

@[simp] theorem State.enterTrap_cur (s : State) (k cause : Nat) (asyn : Bool) (p v : Word) :
    (s.enterTrap k cause asyn p v).cur = s.cur := by
  unfold State.enterTrap
  dsimp only
  split
  next => rfl
  next => split <;> simp

/-! ## The same for a precise trap of the current slot -/

theorem State.slotAt_cur_noteIssue (s : State) : (s.modCur Slot.noteIssue).slotAt s.cur = s.curSlot.noteIssue :=
  s.curSlot_modCur Slot.noteIssue

@[simp] theorem State.trap_tpc (s : State) (cause : Nat) (v : Word) :
    ((s.trap cause v).slotAt s.cur).csr.tpc = s.curSlot.pc := State.enterTrap_tpc ..

@[simp] theorem State.trap_tval (s : State) (cause : Nat) (v : Word) :
    ((s.trap cause v).slotAt s.cur).csr.tval = v := State.enterTrap_tval ..

theorem State.trap_intrap (s : State) (cause : Nat) (v : Word) (h : s.curSlot.intrap = true) :
    ((s.trap cause v).slotAt s.cur).intrap = true := by
  apply State.enterTrap_intrap
  rw [s.slotAt_cur_noteIssue]
  simpa [Slot.intrap] using h

@[simp] theorem State.trap_cur (s : State) (cause : Nat) (v : Word) : (s.trap cause v).cur = s.cur :=
  State.enterTrap_cur ..

/-- A trap writes no general register. -/
@[simp] theorem State.trap_reg (s : State) (cause : Nat) (v : Word) (q : Fin 32) : (s.trap cause v).reg q = s.reg q := by
  have hg : (s.trap cause v).curSlot.g = s.curSlot.g := by
    rw [State.curSlot, State.trap_cur, State.trap, State.enterTrap_g, s.slotAt_cur_noteIssue, Slot.noteIssue_g]
  simp only [State.reg, Slot.reg, hg]

/-! ## Division (R144) -/

section
variable (s : State) (d a b : Fin 32) (t u : Bool) (f : Word → Word → Word)

theorem exec_div : exec (.div d a b t u) s = s.division d a b t u divS := rfl
theorem exec_divu : exec (.divu d a b t u) s = s.division d a b t u divU := rfl
theorem exec_rem : exec (.rem d a b t u) s = s.division d a b t u remS := rfl
theorem exec_remu : exec (.remu d a b t u) s = s.division d a b t u remU := rfl

/-- A division whose conditions hold traps on a zero divisor with IDZE set. -/
theorem State.division_traps (h : s.issues [a, b] d = true) (hb : s.reg b = 0)
    (hi : s.curSlot.csr.tstat.getLsbD 1 = true) : s.division d a b t u f = .next (s.trap 0x05 0) := by
  rw [State.division, State.gated_issues _ _ _ _ _ h rfl, if_pos ⟨hb, hi⟩]

/-- Every other division writes its result. -/
theorem State.division_writes (h : s.issues [a, b] d = true)
    (hn : ¬ (s.reg b = 0 ∧ s.curSlot.csr.tstat.getLsbD 1 = true)) :
    s.division d a b t u f = .next (s.wrote d (f (s.reg a) (s.reg b))) := by
  rw [State.division, State.gated_issues _ _ _ _ _ h rfl, if_neg hn]
  rfl
end

/-- The one quotient that 64 bits do not hold wraps to the dividend. -/
theorem divS_of_ne_zero (a b : Word) (h : b ≠ 0) :
    divS a b = if a.toInt = -2 ^ 63 ∧ b.toInt = -1 then a else BitVec.ofInt 64 (a.toInt.tdiv b.toInt) := by
  rw [divS, if_neg h]
  split
  next ho =>
    obtain ⟨ha, hb⟩ := ho
    apply BitVec.eq_of_toInt_eq
    rw [ha, hb]
    decide
  next => rfl

/-- The remainder is what the quotient times the divisor leaves of the dividend; of the wrapped quotient, nothing. -/
theorem remS_of_ne_zero (a b : Word) (h : b ≠ 0) :
    remS a b = if a.toInt = -2 ^ 63 ∧ b.toInt = -1 then 0
      else BitVec.ofInt 64 (a.toInt - b.toInt * a.toInt.tdiv b.toInt) := by
  rw [remS, if_neg h, Int.tmod_def]
  split
  next ho =>
    obtain ⟨ha, hb⟩ := ho
    rw [ha, hb]
    decide
  next => rfl

theorem divU_of_ne_zero (a b : Word) (h : b ≠ 0) : divU a b = BitVec.ofNat 64 (a.toNat / b.toNat) := if_neg h

theorem remU_of_ne_zero (a b : Word) (h : b ≠ 0) : remU a b = BitVec.ofNat 64 (a.toNat % b.toNat) := if_neg h

/-- Settles O3: a division whose conditions hold either traps or writes; the results are those of the four functions
on a zero divisor and on any other. -/
theorem divisionResults : Obligations.DivisionResults := by
  intro s d a b t u h
  rw [exec_div, exec_divu, exec_rem, exec_remu]
  refine ⟨fun hb hi => ?_, fun hb hi => ?_, fun hb => ?_⟩
  · have traps (f : Word → Word → Word) := s.division_traps d a b t u f h hb hi
    exact ⟨traps divS, traps divU, traps remS, traps remU, s.trap_reg 0x05 0⟩
  · have writes (f : Word → Word → Word) : s.division d a b t u f = .next (s.wrote d (f (s.reg a) 0)) := by
      rw [s.division_writes d a b t u f h (fun ⟨_, hn⟩ => Bool.false_ne_true (hi.symm.trans hn)), hb]
    exact ⟨writes divS, writes divU, writes remS, writes remU⟩
  · have writes (f : Word → Word → Word) := s.division_writes d a b t u f h (fun ⟨hn, _⟩ => hb hn)
    rw [← divS_of_ne_zero _ _ hb, ← remS_of_ne_zero _ _ hb, ← divU_of_ne_zero _ _ hb, ← remU_of_ne_zero _ _ hb]
    exact ⟨writes divS, writes divU, writes remS, writes remU⟩

/-! ## Service and breakpoint (R152) -/

/-- An instruction that only a head task may run gives up its turn in a speculative one (01_work R23). -/
theorem State.gated_speculative (s : State) (srcs : List Src) (d : Fin 32) (act : State → State)
    (h : s.issues (srcs.map (·.1)) d = true) (hs : s.speculative s.cur = true) :
    s.gated srcs d true act = .next s.pause := by
  have hp : s.gated srcs d true act = s.gated srcs d false State.pause := by simp [State.gated, hs]
  rw [hp, State.gated_issues _ _ _ _ _ h rfl]

/-- The trap of `SVC`: the instruction has retired, so the trap stands at the next one. -/
def State.serviceTrap (s : State) (n : Fin 4096) : State :=
  (s.modCur Slot.noteIssue).enterTrap s.cur 0x06 false (s.curSlot.pc + 4) (BitVec.ofNat 64 n.val)

theorem exec_svc (s : State) (n : Fin 4096) : exec (.svc n) s = s.gated [] 0 true (·.serviceTrap n) := rfl

theorem exec_brk (s : State) (n : Fin 4096) :
    exec (.brk n) s = s.gated [] 0 false (·.trap 0x07 (BitVec.ofNat 64 n.val)) := rfl

/-- Settles O9: both instructions enter a trap whose tpc and tval do not depend on a handler. -/
theorem serviceAndBreakpoint : Obligations.ServiceAndBreakpoint := by
  intro s n
  rw [exec_svc, exec_brk]
  refine ⟨fun h hs => ?_, fun h hs => s.gated_speculative [] 0 _ h hs, fun h => ?_⟩
  · have hsvc := s.gated_issues [] 0 true (·.serviceTrap n) h (by simp [hs])
    exact ⟨hsvc, _, hsvc, State.enterTrap_tpc .., State.enterTrap_tval ..⟩
  · exact ⟨_, s.gated_issues [] 0 false _ h rfl, rfl, s.trap_tpc .., s.trap_tval ..⟩

/-! ## Return from a trap (R153) -/

section
variable (s : State)

theorem exec_eret_outside (h : s.curSlot.intrap = false) : exec .eret s = .next (s.trap 0x01 eretWord) := by
  show execEret s = _
  simp [execEret, h]

theorem exec_eret_faults (h : s.curSlot.intrap = true) (f : TrapInfo)
    (hf : s.checkTarget s.cur s.curSlot.csr.tpc = some f) : exec .eret s = .next (s.trapOf f) := by
  show execEret s = _
  simp [execEret, h, hf]

theorem exec_eret_returns (h : s.curSlot.intrap = true) (hf : s.checkTarget s.cur s.curSlot.csr.tpc = none) :
    exec .eret s = .next ((s.goTo s.curSlot.csr.tpc).modCur (Slot.setIntrap · false)) := by
  show execEret s = _
  simp [execEret, h, hf]
end

/-- Settles O10: the target is checked while INTRAP is still set, so its fault is a trap inside the handler. -/
theorem returnFromTrap : Obligations.ReturnFromTrap := by
  intro s
  refine ⟨exec_eret_outside s, fun h => ⟨exec_eret_returns s h, fun f hf => ?_⟩⟩
  exact ⟨_, exec_eret_faults s h f hf, rfl, s.trap_intrap _ _ h⟩

end Machine
end Sys2Proof
